-- ==== Sys2Proof/Word.lean ====
section
/-! DEFINITION. The two bit-vector types of the spec: bytes and 32-bit words (spec/00_scope.md R9, R10).
Everything that computes on them stands in the files that use it. -/

namespace Sys2Proof

/-- A byte is an 8-bit value (R10). -/
abbrev Byte := BitVec 8

/-- A register, a command word or a round-key word: 32 bits (R9, R20). -/
abbrev Word := BitVec 32

end Sys2Proof
end

