-- ==== Sys2Proof/Config.lean ====
section
/-! DEFINITION. The implementation parameters of spec/00_scope.md R6 and the free values of
spec/93_implementation_defined.md part 2. An `opaque` constant has no body: nothing can compute or
prove its value, so whatever is proved holds for each value it may have. -/

namespace Sys2Proof

/-- The parameters of R6, one field each. -/
structure Config where
  /-- `AW`: width in bits of a memory address. -/
  aw : Nat
  /-- `N_AES`: number of AES key contexts. -/
  nAes : Nat
  /-- `N_BENC`: number of encoder instances. -/
  nBenc : Nat
  /-- `N_BDEC`: number of decoder instances. -/
  nBdec : Nat
  /-- `N_GRP`: number of Grouper instances. -/
  nGrp : Nat
  /-- `MAX_STR`: longest separator or terminator, in bytes. -/
  maxStr : Nat
  /-- `CTR_INC_BYTES`: how many low-order counter bytes the bulk path increments. -/
  ctrIncBytes : Nat
  /-- `CORE_BASE`: where the register block sits on the host register bus. -/
  coreBase : Nat
  deriving DecidableEq, Repr

/-- OPEN in R6 (D8): whether `CTR_INC_BYTES` is 16; otherwise it is 8, the only other legal value.
DESIGN CHOICE, log 2, safe. -/
opaque Config.ctrIncIs16 : Bool

/-- OPEN in R6 (D4): `CORE_BASE`. No rule of the spec depends on it (S9). DESIGN CHOICE, log 2, safe. -/
opaque Config.openCoreBase : Nat

/-- The parameters of this hardware: R6's column "value for this hardware". -/
abbrev Config.params : Config where
  aw := 32
  nAes := 1
  nBenc := 1
  nBdec := 1
  nGrp := 1
  maxStr := 255
  ctrIncBytes := if Config.ctrIncIs16 then 16 else 8
  coreBase := Config.openCoreBase

/-- What the host reads of the running command's memory writes before `BUSY = 0`: any value
(R69, S2). Arguments: the model's draw counter and the address. Log 8. -/
opaque Config.unsettledByte : Nat → Nat → Byte

/-- What a byte of an interrupted command's destination holds after a reset: any value (R301, S3).
Arguments: the model's draw counter and the address. Log 8. -/
opaque Config.tornByte : Nat → Nat → Byte

/-- The three units whose instances have an output port (R33, R38, R42). -/
inductive FilterUnit where
  | encoder
  | decoder
  | grouper
  deriving DecidableEq, Repr

/-- The count with which a sink answers an offer for which the outside has listed no answer: any value
(R191, S5). Arguments: the unit, its instance, and how many such answers its port has drawn. Log 5. -/
opaque Config.sinkTakes : FilterUnit → Nat → Nat → Nat

/-- How far a put had come when a reset interrupts it: any value (R301, S3). Argument: the model's draw
counter. Log 9. -/
opaque Config.resetCut : Nat → Nat

end Sys2Proof
end

