-- ==== Sys2Proof/Syntax.lean ====
section
/-! DEFINITION. The command set: one constructor per row of spec/opcode_table.json, its arguments the
fields of the row's encoding (spec/30_encoding.md R80 to R87). All other operands of a command come
from the latched argument registers (R91). -/

namespace Sys2Proof

/-- `DIR` of `AES_SET_KEY` and CPM's `direction` (R30, R87). -/
inductive Direction where
  | encrypt
  | decrypt
  deriving DecidableEq, Repr

/-- A decoded command. `inst` is the 4-bit `INST` field (R82). -/
inductive Instr where
  /-- `AES_SET_KEY` (R140) -/
  | aesSetKey (inst : BitVec 4) (dir : Direction)
  /-- `AES_PROCESS_BLOCK` (R160) -/
  | aesProcessBlock (inst : BitVec 4) (xor : Bool)
  /-- `AES_PROCESS_BLOCKS` (R170) -/
  | aesProcessBlocks (inst : BitVec 4) (xor xorInput dontIncrement inIsCounter : Bool)
  /-- `AES_READ_RK` (R144) -/
  | aesReadRk (inst : BitVec 4)
  /-- `AES_CLEAR_KEY` (R145) -/
  | aesClearKey (inst : BitVec 4)
  /-- `BENC_INIT` (R211) -/
  | bencInit (inst : BitVec 4) (bpc : BitVec 3) (alphabetPresent paddingPresent padFalse : Bool) (padByte : Byte)
  /-- `BENC_PUT` (R212) -/
  | bencPut (inst : BitVec 4) (blocking : Bool) (mel : Byte)
  /-- `BDEC_BUILD_LOOKUP` (R230): it uses no instance -/
  | bdecBuildLookup (caseInsensitive : Bool)
  /-- `BDEC_INIT` (R231) -/
  | bdecInit (inst : BitVec 4) (bpc : BitVec 3) (lookupPresent : Bool)
  /-- `BDEC_PUT` (R232) -/
  | bdecPut (inst : BitVec 4) (blocking : Bool) (mel : Byte)
  /-- `GRP_INIT` (R250) -/
  | grpInit (inst : BitVec 4) (sepPresent termPresent : Bool)
  /-- `GRP_PUT` (R251) -/
  | grpPut (inst : BitVec 4) (blocking : Bool) (mel : Byte)
  deriving DecidableEq, Repr

end Sys2Proof
end

