-- ==== Sys2Proof/WellFormed.lean ====
section
/-! DEFINITION. When a command term stands for a legal command word: its `INST` is below the number of
contexts or instances of its unit (spec/30_encoding.md R82, R88 condition 5). Every other field's range
is its type's. -/

namespace Sys2Proof

/-- How many contexts or instances the command's unit has; `none` for `BDEC_BUILD_LOOKUP`, which names
none (R82). -/
def Instr.unitCount : Instr → Option Nat
  | .aesSetKey _ _ => some Config.params.nAes
  | .aesProcessBlock _ _ => some Config.params.nAes
  | .aesProcessBlocks _ _ _ _ _ => some Config.params.nAes
  | .aesReadRk _ => some Config.params.nAes
  | .aesClearKey _ => some Config.params.nAes
  | .bencInit _ _ _ _ _ _ => some Config.params.nBenc
  | .bencPut _ _ _ => some Config.params.nBenc
  | .bdecBuildLookup _ => none
  | .bdecInit _ _ _ => some Config.params.nBdec
  | .bdecPut _ _ _ => some Config.params.nBdec
  | .grpInit _ _ _ => some Config.params.nGrp
  | .grpPut _ _ _ => some Config.params.nGrp

/-- The `INST` field of the command; 0 for `BDEC_BUILD_LOOKUP`, whose field must be 0 (R82). -/
def Instr.inst : Instr → BitVec 4
  | .aesSetKey i _ => i
  | .aesProcessBlock i _ => i
  | .aesProcessBlocks i _ _ _ _ => i
  | .aesReadRk i => i
  | .aesClearKey i => i
  | .bencInit i _ _ _ _ _ => i
  | .bencPut i _ _ => i
  | .bdecBuildLookup _ => 0
  | .bdecInit i _ _ => i
  | .bdecPut i _ _ => i
  | .grpInit i _ _ => i
  | .grpPut i _ _ => i

/-- The command names an existing context or instance (R82). -/
def Instr.wellFormed (i : Instr) : Bool :=
  match i.unitCount with
  | none => true
  | some n => decide (i.inst.toNat < n)

/-- `wellFormed` as a proposition. -/
abbrev Instr.WellFormed (i : Instr) : Prop := i.wellFormed = true

end Sys2Proof
end

