-- ==== Sys2Proof/Decode.lean ====
section
/-! DEFINITION. The decoder of spec/30_encoding.md R90, total on every 32-bit word and rejecting by
name, and the encoder that writes the same fields back (R80). -/

namespace Sys2Proof

/-- `OPC = w[7:0]` (R80). -/
def opcField (w : Word) : BitVec 8 := w.extractLsb' 0 8
/-- `INST = w[11:8]` (R80). -/
def instField (w : Word) : BitVec 4 := w.extractLsb' 8 4
/-- `RSVD = w[15:12]` (R80). -/
def rsvdField (w : Word) : BitVec 4 := w.extractLsb' 12 4
/-- `FLAGS = w[23:16]` (R80). -/
def flagsField (w : Word) : BitVec 8 := w.extractLsb' 16 8
/-- `PARAM8 = w[31:24]` (R80). -/
def param8Field (w : Word) : BitVec 8 := w.extractLsb' 24 8
/-- `BPC = FLAGS[2:0]` (R84). -/
def bpcField (w : Word) : BitVec 3 := w.extractLsb' 16 3
/-- Flag bit `k`, bit `16 + k` of the word (R84). -/
def flagBit (w : Word) (k : Nat) : Bool := w.getLsbD (16 + k)

/-- The twelve opcodes of R86. -/
inductive Opcode where
  | aesSetKey | aesProcessBlock | aesProcessBlocks | aesReadRk | aesClearKey
  | bencInit | bencPut | bdecBuildLookup | bdecInit | bdecPut | grpInit | grpPut
  deriving DecidableEq, Repr

/-- A row of spec/opcode_table.json: it matches `w` when `w & mask = pattern`. -/
structure OpcodeRow where
  op : Opcode
  pattern : Word
  mask : Word
  deriving DecidableEq, Repr

/-- spec/opcode_table.json, row by row. -/
def opcodeTable : List OpcodeRow :=
  [ ⟨.aesSetKey, 0x00000001#32, 0xFFFEF0FF#32⟩,
    ⟨.aesProcessBlock, 0x00000002#32, 0xFFFEF0FF#32⟩,
    ⟨.aesProcessBlocks, 0x00000003#32, 0xFFF0F0FF#32⟩,
    ⟨.aesReadRk, 0x00000004#32, 0xFFFFF0FF#32⟩,
    ⟨.aesClearKey, 0x00000005#32, 0xFFFFF0FF#32⟩,
    ⟨.bencInit, 0x00000010#32, 0x00C0F0FF#32⟩,
    ⟨.bencPut, 0x00000011#32, 0x00FEF0FF#32⟩,
    ⟨.bdecBuildLookup, 0x00000018#32, 0xFFFEFFFF#32⟩,
    ⟨.bdecInit, 0x00000019#32, 0xFFF0F0FF#32⟩,
    ⟨.bdecPut, 0x0000001A#32, 0x00FEF0FF#32⟩,
    ⟨.grpInit, 0x00000020#32, 0xFFFCF0FF#32⟩,
    ⟨.grpPut, 0x00000021#32, 0x00FEF0FF#32⟩ ]

/-- R86: the value of `OPC` for each opcode. -/
def Opcode.code : Opcode → BitVec 8
  | .aesSetKey => 0x01#8
  | .aesProcessBlock => 0x02#8
  | .aesProcessBlocks => 0x03#8
  | .aesReadRk => 0x04#8
  | .aesClearKey => 0x05#8
  | .bencInit => 0x10#8
  | .bencPut => 0x11#8
  | .bdecBuildLookup => 0x18#8
  | .bdecInit => 0x19#8
  | .bdecPut => 0x1A#8
  | .grpInit => 0x20#8
  | .grpPut => 0x21#8

/-- R87: the `FLAGS` bits the opcode defines. -/
def Opcode.definedFlags : Opcode → BitVec 8
  | .aesSetKey => 0x01#8
  | .aesProcessBlock => 0x01#8
  | .aesProcessBlocks => 0x0F#8
  | .aesReadRk => 0x00#8
  | .aesClearKey => 0x00#8
  | .bencInit => 0x3F#8
  | .bencPut => 0x01#8
  | .bdecBuildLookup => 0x01#8
  | .bdecInit => 0x0F#8
  | .bdecPut => 0x01#8
  | .grpInit => 0x03#8
  | .grpPut => 0x01#8

/-- R85: whether the opcode reads `PARAM8`; the others must have 0 there. -/
def Opcode.usesParam8 : Opcode → Bool
  | .bencInit => true
  | .bencPut => true
  | .bdecPut => true
  | .grpPut => true
  | .aesSetKey => false
  | .aesProcessBlock => false
  | .aesProcessBlocks => false
  | .aesReadRk => false
  | .aesClearKey => false
  | .bdecBuildLookup => false
  | .bdecInit => false
  | .grpInit => false

/-- R86's table read backwards: the opcode of an `OPC` value, `none` for the 244 reserved values. -/
def Opcode.ofCode (c : BitVec 8) : Option Opcode :=
  [Opcode.aesSetKey, .aesProcessBlock, .aesProcessBlocks, .aesReadRk, .aesClearKey, .bencInit,
    .bencPut, .bdecBuildLookup, .bdecInit, .bdecPut, .grpInit, .grpPut].find? (fun o => o.code = c)

/-- Why a command word is illegal (R88, R90), in the order in which R273 checks. -/
inductive DecodeError where
  /-- R88 conditions 1 and 2: `OPC` not in R86's table, or `RSVD ≠ 0`; `ERRARG = 10`. -/
  | opcodeOrReserved
  /-- R88 condition 3: a `FLAGS` bit the command does not define; `ERRARG = 8`. -/
  | undefinedFlag
  /-- R88 condition 4: `PARAM8 ≠ 0` where it must be 0; `ERRARG = 9`. -/
  | param8NotZero
  /-- R88 condition 5: `INST` out of range; `ERRARG = 7`. -/
  | instOutOfRange
  deriving DecidableEq, Repr

/-- The row that matches `w` under its mask, if any (R90). -/
def rowOf (w : Word) : Option OpcodeRow :=
  opcodeTable.find? (fun r => w &&& r.mask = r.pattern)

/-- R90's answer for a word no row matches. -/
def rejection (w : Word) : DecodeError :=
  match Opcode.ofCode (opcField w) with
  | none => .opcodeOrReserved
  | some op =>
    if rsvdField w ≠ 0 then .opcodeOrReserved
    else if flagsField w &&& ~~~ op.definedFlags ≠ 0 then .undefinedFlag
    else if !op.usesParam8 && param8Field w ≠ 0 then .param8NotZero
    else .instOutOfRange

/-- The command of a row, its fields cut from the word (R82 to R85, R87). -/
def commandOf (op : Opcode) (w : Word) : Instr :=
  let i := instField w
  match op with
  | .aesSetKey => .aesSetKey i (if flagBit w 0 then .decrypt else .encrypt)
  | .aesProcessBlock => .aesProcessBlock i (flagBit w 0)
  | .aesProcessBlocks => .aesProcessBlocks i (flagBit w 0) (flagBit w 1) (flagBit w 2) (flagBit w 3)
  | .aesReadRk => .aesReadRk i
  | .aesClearKey => .aesClearKey i
  | .bencInit => .bencInit i (bpcField w) (flagBit w 3) (flagBit w 4) (flagBit w 5) (param8Field w)
  | .bencPut => .bencPut i (flagBit w 0) (param8Field w)
  | .bdecBuildLookup => .bdecBuildLookup (flagBit w 0)
  | .bdecInit => .bdecInit i (bpcField w) (flagBit w 3)
  | .bdecPut => .bdecPut i (flagBit w 0) (param8Field w)
  | .grpInit => .grpInit i (flagBit w 0) (flagBit w 1)
  | .grpPut => .grpPut i (flagBit w 0) (param8Field w)

/-- R90: the decoding procedure, total on every 32-bit word. -/
def decode (w : Word) : Except DecodeError Instr :=
  match rowOf w with
  | none => .error (rejection w)
  | some r =>
    let c := commandOf r.op w
    if c.wellFormed then .ok c else .error .instOutOfRange

/-- The instruction the decoder reads from a command word whose low `nbits` bits are `w`'s; the bits
above are 0. A command word is written to `CMD` whole, so no byte order shows (R64, R80). -/
def decodeTableWord (nbits w : Nat) : Option Instr :=
  match decode (BitVec.ofNat 32 (w % 2 ^ nbits)) with
  | .ok i => some i
  | .error _ => none

/-! The encoder, from the same layout: `PARAM8 FLAGS 0000 INST OPC` (R80). -/

/-- A command word from its fields (R80), `RSVD` 0 (R83). -/
def encodeFields (param8 flags : BitVec 8) (inst : BitVec 4) (opc : BitVec 8) : Word :=
  param8 ++ flags ++ 0#4 ++ inst ++ opc

/-- A byte of `FLAGS` from its bits, bit 7 first. -/
def flagsByte (f7 f6 f5 f4 f3 f2 f1 f0 : Bool) : BitVec 8 :=
  BitVec.ofBool f7 ++ BitVec.ofBool f6 ++ BitVec.ofBool f5 ++ BitVec.ofBool f4
    ++ BitVec.ofBool f3 ++ BitVec.ofBool f2 ++ BitVec.ofBool f1 ++ BitVec.ofBool f0

/-- The opcode of a command. -/
def Instr.opcode : Instr → Opcode
  | .aesSetKey _ _ => .aesSetKey
  | .aesProcessBlock _ _ => .aesProcessBlock
  | .aesProcessBlocks _ _ _ _ _ => .aesProcessBlocks
  | .aesReadRk _ => .aesReadRk
  | .aesClearKey _ => .aesClearKey
  | .bencInit _ _ _ _ _ _ => .bencInit
  | .bencPut _ _ _ => .bencPut
  | .bdecBuildLookup _ => .bdecBuildLookup
  | .bdecInit _ _ _ => .bdecInit
  | .bdecPut _ _ _ => .bdecPut
  | .grpInit _ _ _ => .grpInit
  | .grpPut _ _ _ => .grpPut

/-- The `FLAGS` field of a command (R87). -/
def Instr.flags : Instr → BitVec 8
  | .aesSetKey _ d => flagsByte false false false false false false false (d == .decrypt)
  | .aesProcessBlock _ x => flagsByte false false false false false false false x
  | .aesProcessBlocks _ x y n c => flagsByte false false false false c n y x
  | .aesReadRk _ => 0#8
  | .aesClearKey _ => 0#8
  | .bencInit _ b a q n _ => BitVec.ofBool false ++ BitVec.ofBool false ++ BitVec.ofBool n ++ BitVec.ofBool q ++ BitVec.ofBool a ++ b
  | .bencPut _ k _ => flagsByte false false false false false false false k
  | .bdecBuildLookup c => flagsByte false false false false false false false c
  | .bdecInit _ b l => 0#4 ++ BitVec.ofBool l ++ b
  | .bdecPut _ k _ => flagsByte false false false false false false false k
  | .grpInit _ s t => flagsByte false false false false false false t s
  | .grpPut _ k _ => flagsByte false false false false false false false k

/-- The `PARAM8` field of a command (R85, R87). -/
def Instr.param8 : Instr → BitVec 8
  | .bencInit _ _ _ _ _ p => p
  | .bencPut _ _ m => m
  | .bdecPut _ _ m => m
  | .grpPut _ _ m => m
  | .aesSetKey _ _ => 0
  | .aesProcessBlock _ _ => 0
  | .aesProcessBlocks _ _ _ _ _ => 0
  | .aesReadRk _ => 0
  | .aesClearKey _ => 0
  | .bdecBuildLookup _ => 0
  | .bdecInit _ _ _ => 0
  | .grpInit _ _ _ => 0

/-- The command word of a command (R80). -/
def encode (i : Instr) : Word := encodeFields i.param8 i.flags i.inst i.opcode.code

end Sys2Proof
end

