-- ==== Sys2Proof/Machine/State.lean ====
section
/-! DEFINITION. The machine's state (spec/10_state.md), the reasons a step can stop, and the state after
reset (R48). Plain data throughout. The last four fields of `State`, `Port.answers`, `Port.drawn` and
`Latch.events` are the model's own: they hold what the agents outside the block do and see
(INVENTORY.md, ## State). -/

namespace Sys2Proof.Machine

/-! ### Reasons to stop. No command ever stops: only acts of the host can. -/

/-- Why the machine stops with a fault. -/
inductive Fault where
  /-- The host's `STORE` or `LOAD` (R93) names an address at or above `2^AW`, which does not exist
  (R60). Raised by `State.hostStore` and `State.hostLoad`. Safe: the model stops. -/
  | outsideMemory (addr : Nat)
  deriving DecidableEq, Repr

/-- Why a step has no meaning. -/
inductive Refusal where
  /-- An instruction that has no meaning yet: raised only by a refused arm of `exec`, and this model
  has none. Safe. -/
  | notModelled (mnemonic : String)
  /-- A register access that is not an aligned 32-bit access inside the block: "a model refuses any
  other access" (R65, S10). Raised by `State.busWrite` and `State.busRead`. Safe. -/
  | registerAccess (offset width : Nat)
  /-- A host store, while `BUSY = 1`, to a byte of a buffer that the running command names: a race
  (R69, S1: "a model may also `refuse` such runs"). Raised by `State.hostStore`. Safe. -/
  | hostStoreRace (addr : Nat)
  deriving DecidableEq, Repr

/-! ### Error reporting (R270, R271) -/

/-- The error codes of R270; codes 7 to 255 are never reported (S14). -/
inductive ErrorCode where
  | ok
  | illegalCommand
  | invalidKeyLength
  | invalidArgument
  | badAddress
  | notReady
  | duplicateSymbol
  deriving DecidableEq, Repr

/-- The argument indices of R271; values 11 to 15 are never reported (S14). -/
inductive ArgIndex where
  | nothing
  | a0 | a1 | a2 | a3 | a4 | a5
  /-- 7: the `INST` field or the instance it names -/
  | inst
  /-- 8: the `FLAGS` field -/
  | flags
  /-- 9: the `PARAM8` field -/
  | param8
  /-- 10: the `OPC` or `RSVD` field -/
  | opcode
  deriving DecidableEq, Repr

/-! ### The register block (R20 to R26) -/

/-- The fields of `STATUS` (R22); its reserved bits are always 0. -/
structure Status where
  busy : Bool
  done : Bool
  stalled : Bool
  overrun : Bool
  err : ErrorCode
  errArg : ArgIndex
  deriving DecidableEq, Repr

/-- The argument registers `A0` to `A5` (R23). -/
structure Args where
  a0 : Word
  a1 : Word
  a2 : Word
  a3 : Word
  a4 : Word
  a5 : Word
  deriving DecidableEq, Repr

/-- The command-engine latches (R47): the latched command word and arguments, the input cursor of a
put, the block counter of a bulk command; and, the model's own, how many events a put that waits has
recorded in its port (log 9). -/
structure Latch where
  cmd : Word
  args : Args
  pos : Nat
  k : Nat
  events : Nat
  deriving DecidableEq, Repr

/-! ### Contexts and instances -/

/-- One AES key context (R30). -/
structure AesCtx where
  valid : Bool
  dir : Direction
  /-- `Nr`: 0, 10, 12 or 14 -/
  nr : BitVec 4
  rk : Vector Word 60
  deriving DecidableEq, Repr

/-- The `fsm` field of an encoder or decoder instance (R36, R41). -/
inductive CodecFsm where
  | idle
  | pendBlock
  | pendEom
  deriving DecidableEq, Repr

/-- The `fsm` field of a Grouper instance (R45). -/
inductive GrpFsm where
  | idle
  | pendSep
  | pendTerm
  deriving DecidableEq, Repr

/-- One BaseN encoder instance (R34, R35, R36). -/
structure Encoder where
  valid : Bool
  /-- `bits_per_char` -/
  b : Nat
  alphabet : Vector Byte 128
  padEn : Bool
  padByte : Byte
  /-- `output_block_size`, in symbols -/
  obs : Nat
  outBuf : Vector Byte 8
  bytePos : Nat
  bitPos : Nat
  fsm : CodecFsm
  pendLen : Nat
  pendOff : Nat
  pendMel : Nat
  deriving DecidableEq, Repr

/-- One BaseN decoder instance (R39, R40, R41). -/
structure Decoder where
  valid : Bool
  /-- `bits_per_char` -/
  b : Nat
  lookup : Vector Byte 256
  /-- `output_block_size`, in bytes -/
  obs : Nat
  outBuf : Vector Byte 7
  bytePos : Nat
  bitPos : Nat
  fsm : CodecFsm
  pendLen : Nat
  pendOff : Nat
  pendMel : Nat
  deriving DecidableEq, Repr

/-- One Grouper instance (R43, R44, R45). -/
structure Grouper where
  valid : Bool
  groupSize : Word
  sep : Vector Byte Config.params.maxStr
  sepLen : Nat
  term : Vector Byte Config.params.maxStr
  termLen : Nat
  /-- bytes forwarded since the last separator -/
  counter : Nat
  fsm : GrpFsm
  pendOff : Nat
  pendMel : Nat
  deriving DecidableEq, Repr

/-! ### Output ports (R46, R190) -/

/-- An event of a port's history (R46). -/
inductive Event where
  /-- one offer and the count of bytes the sink took -/
  | offer (bytes : List Byte) (mel : Nat) (blocking : Bool) (taken : Nat)
  /-- `End(level)`: an emission with message-end level `level ≥ 1` has completed -/
  | ended (level : Nat)
  deriving DecidableEq, Repr

/-- An output port: its history, oldest event first (R46), and, the model's own, the sink's answers
that are listed and that no offer has used yet, in order, and how many offers were answered by a free
value (R191, log 5). -/
structure Port where
  history : List Event
  answers : List Nat
  drawn : Nat
  deriving DecidableEq, Repr

/-- The name of an output port (R46). -/
inductive PortId where
  /-- `OUT_E[i]` -/
  | outE (i : Fin Config.params.nBenc)
  /-- `OUT_D[i]` -/
  | outD (i : Fin Config.params.nBdec)
  /-- `OUT_G[i]` -/
  | outG (i : Fin Config.params.nGrp)
  deriving DecidableEq, Repr

/-! ### Acts of the agents outside the block (R93, R191, R300) -/

/-- One act of the host, of a sink or of the platform, or a turn of the engine. -/
inductive Input where
  /-- `WR`: a write of `value` at byte offset `offset` from `CORE_BASE`, `width` bits wide (R65) -/
  | writeReg (offset width : Nat) (value : Word)
  /-- `RD`: a read at byte offset `offset`, `width` bits wide -/
  | readReg (offset width : Nat)
  /-- `STORE addr, bytes` -/
  | store (addr : Nat) (bytes : List Byte)
  /-- `LOAD addr, n` -/
  | load (addr n : Nat)
  /-- `WAIT`: read `STATUS` until `BUSY = 0`, one read for each turn of the engine (log 4) -/
  | wait
  /-- the engine takes its turn before the acts that follow -/
  | engine
  /-- the sink of a port will answer its next offer for which no answer is listed with `taken` (R191) -/
  | sinkAnswers (port : PortId) (taken : Nat)
  /-- the platform asserts reset (R300) -/
  | reset
  deriving DecidableEq, Repr

/-! ### Memory (R60) -/

/-- The memory `M`: address and byte pairs, addresses strictly rising, no pair equal to what an
unlisted address reads as (`Memory.Wf`). -/
abbrev Memory := List Host.Cell

/-- What an address that is not listed reads as. The block does not initialise memory (R60); the
programs of 95_test_vectors.md start from zero memory. DESIGN CHOICE, log 1, unsafe. -/
def unlistedByte : Byte := 0#8

/-! ### The state -/

/-- The state of the block, its memory, and the agents around it. -/
structure State where
  /-- `A0` to `A5` (R23) -/
  args : Args
  /-- `RESULT` (R24) -/
  result : Word
  /-- `STATUS` (R22) -/
  status : Status
  /-- the command-engine latches (R47) -/
  latch : Latch
  /-- the AES key contexts (R29) -/
  aes : Vector AesCtx Config.params.nAes
  /-- the encoder instances (R33) -/
  enc : Vector Encoder Config.params.nBenc
  /-- the decoder instances (R38) -/
  dec : Vector Decoder Config.params.nBdec
  /-- the Grouper instances (R42) -/
  grp : Vector Grouper Config.params.nGrp
  /-- the ports `OUT_E[i]` (R46) -/
  outE : Vector Port Config.params.nBenc
  /-- the ports `OUT_D[i]` (R46) -/
  outD : Vector Port Config.params.nBdec
  /-- the ports `OUT_G[i]` (R46) -/
  outG : Vector Port Config.params.nGrp
  /-- the memory `M` (R60) -/
  mem : Memory
  /-- the model's own: what the outside agents do next, in order (log 4) -/
  inputs : List Input
  /-- the model's own: what the last host register read returned (log 6) -/
  rdData : Word
  /-- the model's own: what the last host `LOAD` returned (log 6) -/
  ldData : List Byte
  /-- the model's own: the counter that free values are drawn with (log 8) -/
  freeCount : Nat
  deriving DecidableEq, Repr

/-! ### Reset values (R48) -/

/-- `A0` to `A5` after reset: 0. -/
def Args.zero : Args := ⟨0, 0, 0, 0, 0, 0⟩

/-- `STATUS` after reset: 0. -/
def Status.zero : Status := ⟨false, false, false, false, .ok, .nothing⟩

/-- The latches while no command runs: none of their contents survives a command (R47). -/
def Latch.idle : Latch := ⟨0, Args.zero, 0, 0, 0⟩

/-- An AES context after reset (R48). -/
def AesCtx.empty : AesCtx := ⟨false, .encrypt, 0, Vector.replicate 60 0⟩

/-- An encoder instance after reset (R48). -/
def Encoder.empty : Encoder where
  valid := false
  b := 0
  alphabet := Vector.replicate 128 0
  padEn := false
  padByte := 0
  obs := 0
  outBuf := Vector.replicate 8 0
  bytePos := 0
  bitPos := 0
  fsm := .idle
  pendLen := 0
  pendOff := 0
  pendMel := 0

/-- A decoder instance after reset: its lookup entries are all `0xFF` (R48). -/
def Decoder.empty : Decoder where
  valid := false
  b := 0
  lookup := Vector.replicate 256 0xFF#8
  obs := 0
  outBuf := Vector.replicate 7 0
  bytePos := 0
  bitPos := 0
  fsm := .idle
  pendLen := 0
  pendOff := 0
  pendMel := 0

/-- A Grouper instance after reset (R48). -/
def Grouper.empty : Grouper where
  valid := false
  groupSize := 0
  sep := Vector.replicate Config.params.maxStr 0
  sepLen := 0
  term := Vector.replicate Config.params.maxStr 0
  termLen := 0
  counter := 0
  fsm := .idle
  pendOff := 0
  pendMel := 0

/-- A port with an empty history (R48). -/
def Port.empty : Port := ⟨[], [], 0⟩

/-- The machine right after reset (R48, R300), with nothing listed in memory and no act pending. -/
def State.reset : State where
  args := Args.zero
  result := 0
  status := Status.zero
  latch := Latch.idle
  aes := Vector.replicate _ AesCtx.empty
  enc := Vector.replicate _ Encoder.empty
  dec := Vector.replicate _ Decoder.empty
  grp := Vector.replicate _ Grouper.empty
  outE := Vector.replicate _ Port.empty
  outD := Vector.replicate _ Port.empty
  outG := Vector.replicate _ Port.empty
  mem := []
  inputs := []
  rdData := 0
  ldData := []
  freeCount := 0

end Sys2Proof.Machine
end

