-- ==== Sys2Proof/Machine/Flags.lean ====
section
/-! DEFINITION. `STATUS` and `ID` as words: the layout of the block's only flags (spec/10_state.md R22,
R25) and what the start and the end of a command do to them (R21, R272, R304, spec/44 R194). -/

namespace Sys2Proof.Machine

/-- R270: the code in `STATUS.ERR`. -/
def ErrorCode.code : ErrorCode → BitVec 8
  | .ok => 0
  | .illegalCommand => 1
  | .invalidKeyLength => 2
  | .invalidArgument => 3
  | .badAddress => 4
  | .notReady => 5
  | .duplicateSymbol => 6

/-- R271: the index in `STATUS.ERRARG`. -/
def ArgIndex.code : ArgIndex → BitVec 4
  | .nothing => 0
  | .a0 => 1
  | .a1 => 2
  | .a2 => 3
  | .a3 => 4
  | .a4 => 5
  | .a5 => 6
  | .inst => 7
  | .flags => 8
  | .param8 => 9
  | .opcode => 10

/-- R273 steps 1 to 4: the argument index of each way a command word is illegal. -/
def decodeErrorArg : DecodeError → ArgIndex
  | .opcodeOrReserved => .opcode
  | .undefinedFlag => .flags
  | .param8NotZero => .param8
  | .instOutOfRange => .inst

/-- The word a read of `STATUS` returns (R22). -/
def Status.toWord (s : Status) : Word :=
  0#12 ++ s.errArg.code ++ s.err.code ++ 0#4 ++ BitVec.ofBool s.overrun ++ BitVec.ofBool s.stalled
    ++ BitVec.ofBool s.done ++ BitVec.ofBool s.busy

/-- `STATUS` at the start of a command (R21): `OVERRUN` is sticky. -/
def Status.start (s : Status) : Status :=
  { busy := true, done := false, stalled := false, overrun := s.overrun, err := .ok, errArg := .nothing }

/-- `STATUS` at an end without error (R304 step 3). -/
def Status.finish (s : Status) : Status := { s with busy := false, done := true }

/-- `STATUS` at a stall (R194): an end without error, `STALLED` set. -/
def Status.stall (s : Status) : Status := { s with busy := false, done := true, stalled := true }

/-- `STATUS` at an error (R272). -/
def Status.fail (s : Status) (code : ErrorCode) (arg : ArgIndex) : Status :=
  { s with busy := false, done := true, err := code, errArg := arg }

/-- The word a read of `ID` returns (R25), from the parameters. -/
def idWord (c : Config) : Word :=
  0#2 ++ BitVec.ofNat 8 c.maxStr ++ BitVec.ofNat 5 (c.aw - 1) ++ BitVec.ofBool (c.ctrIncBytes == 16)
    ++ BitVec.ofNat 4 (c.nGrp - 1) ++ BitVec.ofNat 4 (c.nBdec - 1) ++ BitVec.ofNat 4 (c.nBenc - 1)
    ++ BitVec.ofNat 4 (c.nAes - 1)

end Sys2Proof.Machine
end

