-- ==== Sys2Proof/Machine/Ops.lean ====
section
/-! DEFINITION. The named operations over memory, banks and registers: byte order (spec/00_scope.md
R10), `MemRead`, `MemWrite`, `CheckRange` (spec/20_memory.md R61, R62), the start of a command (R21),
taking an error as ONE operation, `State.raise` (spec/60_exceptions.md R272), and a command's two other
ends. There is no return from an error to model (R275). -/

namespace Sys2Proof.Machine

/-! ### Byte order (R10, R117) -/

/-- `Bk(w) = (w >> 8k) & 0xFF` (R117). -/
def byteOf (w : Word) (k : Nat) : Byte := w.extractLsb' (8 * k) 8

/-- `be32`: four bytes, most significant first (R10). -/
def be32 (b3 b2 b1 b0 : Byte) : Word := b3 ++ b2 ++ b1 ++ b0

/-- `bytes32`: the inverse of `be32` (R10). -/
def bytes32 (w : Word) : List Byte := [byteOf w 3, byteOf w 2, byteOf w 1, byteOf w 0]

/-- The word at byte `4i` of a byte string, big-endian (R10). -/
def wordAt (x : List Byte) (i : Nat) : Word :=
  be32 (x.getD (4 * i) 0) (x.getD (4 * i + 1) 0) (x.getD (4 * i + 2) 0) (x.getD (4 * i + 3) 0)

/-- Byte-by-byte exclusive-or of two byte strings (R10). -/
def xorBytes (x y : List Byte) : List Byte := List.zipWith (· ^^^ ·) x y

/-- A big-endian byte string as a number (R64). -/
def beNat (x : List Byte) : Nat := x.foldl (fun v c => 256 * v + c.toNat) 0

/-- The `n` low-order bytes of a number, most significant first. -/
def beBytes (n v : Nat) : List Byte :=
  (List.range n).map (fun i => BitVec.ofNat 8 (v / 256 ^ (n - 1 - i)))

/-! ### Buffers of fixed length -/

/-- Entry `i` of a buffer; `d` past its end. -/
def entry {α : Type} {n : Nat} (v : Vector α n) (i : Nat) (d : α) : α := v.toList.getD i d

/-- A buffer with entry `i` replaced; unchanged if there is no entry `i`. -/
def setEntry {α : Type} {n : Nat} (v : Vector α n) (i : Nat) (a : α) : Vector α n := v.setIfInBounds i a

/-- A buffer of length `n` that starts with the elements of `l` and is filled with `d`. -/
def fillBuffer {α : Type} (n : Nat) (l : List α) (d : α) : Vector α n :=
  ⟨(l.take n ++ List.replicate (n - l.length) d).toArray, by simp; omega⟩

/-- A bank of `n` instances with each replaced by its image. -/
def mapBank {α : Type} {n : Nat} (f : α → α) (v : Vector α n) : Vector α n :=
  ⟨(v.toList.map f).toArray, by simp⟩

/-! ### Memory (R60, R61) -/

/-- The byte at address `a`. -/
def Memory.read : Memory → Nat → Byte
  | [], _ => unlistedByte
  | (b, v) :: m, a => if a = b then v else Memory.read m a

/-- The memory with byte `v` at address `a`, in the canonical form. -/
def Memory.write : Memory → Nat → Byte → Memory
  | [], a, v => if v = unlistedByte then [] else [(a, v)]
  | (b, w) :: m, a, v =>
    if a < b then (if v = unlistedByte then (b, w) :: m else (a, v) :: (b, w) :: m)
    else if a = b then (if v = unlistedByte then m else (a, v) :: m)
    else (b, w) :: Memory.write m a v

/-- `MemRead(addr, n)` (R61). -/
def Memory.readN (m : Memory) (a n : Nat) : List Byte := (List.range n).map (fun i => m.read (a + i))

/-- `MemWrite(addr, n, v)`, `n` the length of `v`, in ascending order (R61). -/
def Memory.writeN : Memory → Nat → List Byte → Memory
  | m, _, [] => m
  | m, a, v :: vs => Memory.writeN (m.write a v) (a + 1) vs

/-- The canonical form: addresses strictly rising, no entry equal to the unlisted byte. -/
abbrev Memory.Wf (m : Memory) : Prop :=
  m.Pairwise (fun c d => c.1 < d.1) ∧ ∀ c ∈ m, c.2 ≠ unlistedByte

/-- The number of addresses: `2^AW` (R60). -/
def memSize : Nat := 2 ^ Config.params.aw

/-! ### Checks (R62, R272, R273) -/

/-- One check of a command: whether it fails, and what it then raises. -/
structure Check where
  fails : Bool
  code : ErrorCode
  arg : ArgIndex
  deriving DecidableEq, Repr

/-- `CheckRange(addr, n, argidx)` (R62). -/
def rangeCheck (addr n : Nat) (arg : ArgIndex) : Check :=
  ⟨!decide (n = 0 ∨ addr + n ≤ memSize), .badAddress, arg⟩

/-- The first check, in order, that fails (R273). -/
def firstFailure : List Check → Option (ErrorCode × ArgIndex)
  | [] => none
  | c :: cs => if c.fails then some (c.code, c.arg) else firstFailure cs

/-! ### The life cycle of a command (R21, R304) -/

/-- The start of command word `w` (R21): the latches are loaded, `RESULT` and `STATUS` cleared but for
`OVERRUN`, `BUSY` set. -/
def State.startCommand (s : State) (w : Word) : State :=
  { s with
    latch := { cmd := w, args := s.args, pos := 0, k := 0, events := 0 }
    result := 0
    status := s.status.start }

/-- `raise Error(code, argidx)` (R272): the running command ends at once with the error reported in
`STATUS`; `RESULT` stays what the start made it; the latches are given up (R47). -/
def State.raise (s : State) (code : ErrorCode) (arg : ArgIndex) : State :=
  { s with status := s.status.fail code arg, latch := Latch.idle }

/-- The end of a command without error, with its result (R304 step 3). -/
def State.finish (s : State) (r : Word) : State :=
  { s with result := r, status := s.status.finish, latch := Latch.idle }

/-- The end of a put by a stall, with the residual (R194). -/
def State.stall (s : State) (r : Word) : State :=
  { s with result := r, status := s.status.stall, latch := Latch.idle }

/-- A command's checks come before its first effect (R272): the first that fails is raised, and
otherwise the command has its effect. -/
def State.guarded (s : State) (checks : List Check) (effect : State) : Host.Outcome State Fault Refusal :=
  match firstFailure checks with
  | some (code, arg) => .next (s.raise code arg)
  | none => .next effect

/-! ### Contexts and instances: the one that `INST` names (R82) -/

/-- Context `i`. -/
def State.aesCtx (s : State) (i : BitVec 4) : AesCtx := entry s.aes i.toNat AesCtx.empty
/-- Encoder `i`. -/
def State.encoder (s : State) (i : BitVec 4) : Encoder := entry s.enc i.toNat Encoder.empty
/-- Decoder `i`. -/
def State.decoder (s : State) (i : BitVec 4) : Decoder := entry s.dec i.toNat Decoder.empty
/-- Grouper `i`. -/
def State.grouper (s : State) (i : BitVec 4) : Grouper := entry s.grp i.toNat Grouper.empty
/-- Port `OUT_E[i]`. -/
def State.portE (s : State) (i : BitVec 4) : Port := entry s.outE i.toNat Port.empty
/-- Port `OUT_D[i]`. -/
def State.portD (s : State) (i : BitVec 4) : Port := entry s.outD i.toNat Port.empty
/-- Port `OUT_G[i]`. -/
def State.portG (s : State) (i : BitVec 4) : Port := entry s.outG i.toNat Port.empty

/-- Context `i` replaced. -/
def State.setAesCtx (s : State) (i : BitVec 4) (c : AesCtx) : State := { s with aes := setEntry s.aes i.toNat c }
/-- Encoder `i` replaced. -/
def State.setEncoder (s : State) (i : BitVec 4) (e : Encoder) : State := { s with enc := setEntry s.enc i.toNat e }
/-- Decoder `i` replaced. -/
def State.setDecoder (s : State) (i : BitVec 4) (d : Decoder) : State := { s with dec := setEntry s.dec i.toNat d }
/-- Grouper `i` replaced. -/
def State.setGrouper (s : State) (i : BitVec 4) (g : Grouper) : State := { s with grp := setEntry s.grp i.toNat g }
/-- Port `OUT_E[i]` replaced. -/
def State.setPortE (s : State) (i : BitVec 4) (p : Port) : State := { s with outE := setEntry s.outE i.toNat p }
/-- Port `OUT_D[i]` replaced. -/
def State.setPortD (s : State) (i : BitVec 4) (p : Port) : State := { s with outD := setEntry s.outD i.toNat p }
/-- Port `OUT_G[i]` replaced. -/
def State.setPortG (s : State) (i : BitVec 4) (p : Port) : State := { s with outG := setEntry s.outG i.toNat p }
/-- The memory replaced. -/
def State.setMem (s : State) (m : Memory) : State := { s with mem := m }
/-- The progress of a put that waits: its input cursor `pos` (R47), and how many events it has recorded. -/
def State.setProgress (s : State) (pos events : Nat) : State :=
  { s with latch := { s.latch with pos := pos, events := events } }
/-- The block counter `k` of the running bulk command (R47). -/
def State.setK (s : State) (k : Nat) : State := { s with latch := { s.latch with k := k } }

end Sys2Proof.Machine
end

