-- ==== Sys2Proof/Machine/Operands.lean ====
section
/-! DEFINITION. The operands of the running command (spec/30_encoding.md R87, R91): addresses, lengths
and sizes from the latched argument registers, immediates from the command word. -/

namespace Sys2Proof.Machine

/-- An address register reduced to `AW` bits (R60, R91). -/
def addressOf (a : Word) : Nat := a.toNat % 2 ^ Config.params.aw

/-- The address in `A0` (R91), from the latch (R21). -/
def State.addr0 (s : State) : Nat := addressOf s.latch.args.a0
/-- The address in `A1`. -/
def State.addr1 (s : State) : Nat := addressOf s.latch.args.a1
/-- The address in `A2`. -/
def State.addr2 (s : State) : Nat := addressOf s.latch.args.a2
/-- The length in `A3`, an unsigned number used without scaling (R91). -/
def State.len3 (s : State) : Nat := s.latch.args.a3.toNat
/-- The length in `A4`. -/
def State.len4 (s : State) : Nat := s.latch.args.a4.toNat
/-- The 32-bit parameter in `A5`. -/
def State.param5 (s : State) : Word := s.latch.args.a5

/-- `bits_per_char`, unsigned, 0 to 7 (R91). -/
def bitsPerChar (bpc : BitVec 3) : Nat := bpc.toNat

/-- `mel = zext_32(PARAM8)` (R91). -/
def messageEndLevel (param8 : Byte) : Nat := param8.toNat

/-- `lcm(8, b) / b`: the encoder's output block size in symbols (R210). -/
def encoderBlockSize (b : Nat) : Nat := Nat.lcm 8 b / b

/-- `lcm(8, b) / 8`: the decoder's output block size in bytes (R235). -/
def decoderBlockSize (b : Nat) : Nat := Nat.lcm 8 b / 8

end Sys2Proof.Machine
end

