-- ==== Sys2Proof/Machine/AesCipher.lean ====
section
/-! DEFINITION. The AES rounds and the block cipher of a key context (spec/40_aes_primitives.md R120 to
R128), and the key schedules (spec/41_aes_key_schedule.md R141, R142). The table sweep of R127 has no
effect and is left out, as R125 and R126 do. -/

namespace Sys2Proof.Machine

/-- An AES state: the four column words `s_0` to `s_3` (R120). -/
structure Columns where
  c0 : Word
  c1 : Word
  c2 : Word
  c3 : Word
  deriving DecidableEq, Repr

/-- Four columns xored with round key `r`, words `4r` to `4r+3` of the schedule (R14, R120). -/
def addRoundKey (rk : List Word) (r : Nat) (s : Columns) : Columns :=
  ⟨s.c0 ^^^ rk.getD (4 * r) 0, s.c1 ^^^ rk.getD (4 * r + 1) 0, s.c2 ^^^ rk.getD (4 * r + 2) 0,
    s.c3 ^^^ rk.getD (4 * r + 3) 0⟩

/-- The 16-byte input as columns (R120). -/
def loadColumns (x : List Byte) : Columns := ⟨wordAt x 0, wordAt x 1, wordAt x 2, wordAt x 3⟩

/-- Columns as the 16-byte output (R120). -/
def storeColumns (s : Columns) : List Byte := bytes32 s.c0 ++ bytes32 s.c1 ++ bytes32 s.c2 ++ bytes32 s.c3

/-- One column of a table round: the byte 3 of `a`, 2 of `b`, 1 of `c`, 0 of `d` looked up in the four
quarters of the table (R121, R123). -/
def tableColumn (t : Nat → Byte → Word) (a b c d : Word) : Word :=
  t 0 (byteOf a 3) ^^^ t 1 (byteOf b 2) ^^^ t 2 (byteOf c 1) ^^^ t 3 (byteOf d 0)

/-- One column of a final round: S-box bytes side by side (R122, R124). -/
def boxColumn (box : Byte → Byte) (a b c d : Word) : Word :=
  be32 (box (byteOf a 3)) (box (byteOf b 2)) (box (byteOf c 1)) (box (byteOf d 0))

/-- A column function applied in the column pattern `c, c+1, c+2, c+3` of R121 and R122. -/
def shiftRows (f : Word → Word → Word → Word → Word) (s : Columns) : Columns :=
  ⟨f s.c0 s.c1 s.c2 s.c3, f s.c1 s.c2 s.c3 s.c0, f s.c2 s.c3 s.c0 s.c1, f s.c3 s.c0 s.c1 s.c2⟩

/-- A column function applied in the column pattern `c, c+3, c+2, c+1` of R123 and R124. -/
def invShiftRows (f : Word → Word → Word → Word → Word) (s : Columns) : Columns :=
  ⟨f s.c0 s.c3 s.c2 s.c1, f s.c1 s.c0 s.c3 s.c2, f s.c2 s.c1 s.c0 s.c3, f s.c3 s.c2 s.c1 s.c0⟩

/-- Encryption round `r` (R121). -/
def encRound (rk : List Word) (r : Nat) (s : Columns) : Columns := addRoundKey rk r (shiftRows (tableColumn te) s)

/-- Encryption final round (R122). -/
def encFinal (rk : List Word) (nr : Nat) (s : Columns) : Columns := addRoundKey rk nr (shiftRows (boxColumn se) s)

/-- Decryption round `r` (R123). -/
def decRound (rk : List Word) (r : Nat) (s : Columns) : Columns := addRoundKey rk r (invShiftRows (tableColumn td) s)

/-- Decryption final round (R124). -/
def decFinal (rk : List Word) (nr : Nat) (s : Columns) : Columns := addRoundKey rk nr (invShiftRows (boxColumn sd) s)

/-- `n` rounds from round `r` on. -/
def roundsFrom (round : Nat → Columns → Columns) : Nat → Nat → Columns → Columns
  | 0, _, s => s
  | n + 1, r, s => roundsFrom round n (r + 1) (round r s)

/-- `EncBlock` (R125): `Nr - 1` table rounds and the final round (R128). -/
def encBlock (rk : List Word) (nr : Nat) (x : List Byte) : List Byte :=
  storeColumns (encFinal rk nr (roundsFrom (encRound rk) (nr - 1) 1 (addRoundKey rk 0 (loadColumns x))))

/-- `DecBlock` (R126). -/
def decBlock (rk : List Word) (nr : Nat) (x : List Byte) : List Byte :=
  storeColumns (decFinal rk nr (roundsFrom (decRound rk) (nr - 1) 1 (addRoundKey rk 0 (loadColumns x))))

/-- `Cipher(ctx, x)`: the context's direction picks the function (R126). -/
def cipher (c : AesCtx) (x : List Byte) : List Byte :=
  match c.dir with
  | .encrypt => encBlock c.rk.toList c.nr.toNat x
  | .decrypt => decBlock c.rk.toList c.nr.toNat x

/-! ### Key schedules -/

/-- Word `i` of the expansion from the words before it, `i` their count (R141). -/
def nextKeyWord (nk : Nat) (w : List Word) : Word :=
  let i := w.length
  let t := w.getD (i - 1) 0
  let u :=
    if i % nk = 0 then subWord (rotWord t) ^^^ be32 (rcon (i / nk)) 0 0 0
    else if nk = 8 ∧ i % nk = 4 then subWord t
    else t
  w.getD (i - nk) 0 ^^^ u

/-- `n` more words of the expansion. -/
def expandKey (nk : Nat) : Nat → List Word → List Word
  | 0, w => w
  | n + 1, w => expandKey nk n (w ++ [nextKeyWord nk w])

/-- The key as big-endian words (R141). -/
def keyWords (key : List Byte) : List Word := (List.range (key.length / 4)).map (wordAt key)

/-- The round count of a key: `Nr = Nk + 6` (R141). -/
def roundCount (key : List Byte) : Nat := key.length / 4 + 6

/-- `KeyExpand(key)`: the `4(Nr+1)` words of the encryption schedule (R141). -/
def keyExpand (key : List Byte) : List Word :=
  expandKey (key.length / 4) (4 * (roundCount key + 1) - key.length / 4) (keyWords key)

/-- `InvMixColumn` through the tables (R142). -/
def invMixColumn (w : Word) : Word :=
  td 0 (se (byteOf w 3)) ^^^ td 1 (se (byteOf w 2)) ^^^ td 2 (se (byteOf w 1)) ^^^ td 3 (se (byteOf w 0))

/-- `InvSchedule(W, Nr)`: rounds reversed, interior rounds transformed (R142). No byte reversal (R143). -/
def invSchedule (w : List Word) (nr : Nat) : List Word :=
  (List.range (4 * (nr + 1))).map (fun k =>
    let v := w.getD (4 * (nr - k / 4) + k % 4) 0
    if 4 ≤ k ∧ k < 4 * nr then invMixColumn v else v)

/-- The schedule of a key in a direction (R140). -/
def keySchedule (dir : Direction) (key : List Byte) : List Word :=
  match dir with
  | .encrypt => keyExpand key
  | .decrypt => invSchedule (keyExpand key) (roundCount key)

end Sys2Proof.Machine
end

