-- ==== Sys2Proof/Machine/AesBlock.lean ====
section
/-! DEFINITION. `AES_PROCESS_BLOCK` (spec/42_aes_block.md R160). -/

namespace Sys2Proof.Machine

/-- Sixteen zero bytes: the xor block of a command that has none (R160, R170). -/
def zeroBlock : List Byte := List.replicate 16 0

/-- The checks of `AES_PROCESS_BLOCK` (R160): `A1` is checked only with `XOR`. -/
def processBlockChecks (i : BitVec 4) (xor : Bool) (s : State) : List Check :=
  [⟨!(s.aesCtx i).valid, .notReady, .inst⟩, rangeCheck s.addr0 16 .a0]
    ++ (if xor then [rangeCheck s.addr1 16 .a1] else []) ++ [rangeCheck s.addr2 16 .a2]

/-- `AES_PROCESS_BLOCK` (R160): both reads come before the write (R161). -/
def execAesProcessBlock (i : BitVec 4) (xor : Bool) (s : State) : Host.Outcome State Fault Refusal :=
  let p := s.mem.readN s.addr0 16
  let x := if xor then s.mem.readN s.addr1 16 else zeroBlock
  let y := xorBytes (cipher (s.aesCtx i) p) x
  s.guarded (processBlockChecks i xor s) ((s.setMem (s.mem.writeN s.addr2 y)).finish 0)

end Sys2Proof.Machine
end

