-- ==== Sys2Proof/Machine/AesBulk.lean ====
section
/-! DEFINITION. `AES_PROCESS_BLOCKS` (spec/43_aes_bulk.md R170 to R175). The optimisations of R174
change no result and are left out. -/

namespace Sys2Proof.Machine

/-- The flags of a bulk command (R170). -/
structure BulkFlags where
  xor : Bool
  xorInput : Bool
  dontIncrement : Bool
  inIsCounter : Bool
  deriving DecidableEq, Repr

/-- `inInc` (R170). -/
def BulkFlags.inInc (f : BulkFlags) : Nat := if f.dontIncrement || f.inIsCounter then 0 else 16

/-- `outInc` (R170). -/
def BulkFlags.outInc (f : BulkFlags) : Nat := if f.dontIncrement then 0 else 16

/-- `CtrInc(P)` (R171) for a counter width of `c` bytes. -/
def ctrIncWidth (c : Nat) (p : List Byte) : List Byte :=
  p.take (16 - c) ++ beBytes c ((beNat (p.drop (16 - c)) + 1) % 2 ^ (8 * c))

/-- `CtrInc(P)` (R171): the width is the open parameter `CTR_INC_BYTES`. -/
def ctrInc (p : List Byte) : List Byte := ctrIncWidth Config.params.ctrIncBytes p

/-- `nb = n div 16` (R170). -/
def State.blockCount (s : State) : Nat := s.len3 / 16

/-- The length of the input range: all the blocks, or one when the pointer is frozen (R170). -/
def bulkInLength (f : BulkFlags) (nb : Nat) : Nat := if f.inInc = 16 then 16 * nb else 16

/-- The length of the output range (R170). -/
def bulkOutLength (f : BulkFlags) (nb : Nat) : Nat := if f.outInc = 16 then 16 * nb else 16

/-- The checks of `AES_PROCESS_BLOCKS` (R170): ranges only when there is a block. -/
def bulkChecks (i : BitVec 4) (f : BulkFlags) (s : State) : List Check :=
  let nb := s.blockCount
  [⟨!(s.aesCtx i).valid, .notReady, .inst⟩]
    ++ (if 0 < nb then
          [rangeCheck s.addr0 (bulkInLength f nb) .a0]
            ++ (if f.xor then [rangeCheck s.addr1 (16 * nb) .a1] else [])
            ++ [rangeCheck s.addr2 (bulkOutLength f nb) .a2]
        else [])

/-- One pass of R170's loop body, on block `k` of the latch, in the access order of R175. -/
def bulkBlock (c : AesCtx) (f : BulkFlags) (s : State) : State :=
  let k := s.latch.k
  let p := s.mem.readN (s.addr0 + k * f.inInc) 16
  let x := if f.xor then s.mem.readN (s.addr1 + 16 * k) 16 else zeroBlock
  let y := if f.xorInput then cipher c (xorBytes p x) else xorBytes (cipher c p) x
  let m := s.mem.writeN (s.addr2 + k * f.outInc) y
  let m' := if f.inIsCounter then m.writeN s.addr0 (ctrInc p) else m
  (s.setMem m').setK (k + 1)

/-- `n` passes of the loop. -/
def bulkLoop (c : AesCtx) (f : BulkFlags) : Nat → State → State
  | 0, s => s
  | n + 1, s => bulkLoop c f n (bulkBlock c f s)

/-- The bulk command on its flags (R170). -/
def bulkCommand (i : BitVec 4) (f : BulkFlags) (s : State) : Host.Outcome State Fault Refusal :=
  s.guarded (bulkChecks i f s)
    ((bulkLoop (s.aesCtx i) f (s.blockCount - s.latch.k) s).finish (BitVec.ofNat 32 (s.len3 % 16)))

/-- `AES_PROCESS_BLOCKS` (R170). -/
def execAesProcessBlocks (i : BitVec 4) (xor xorInput dontIncrement inIsCounter : Bool) (s : State) :
    Host.Outcome State Fault Refusal :=
  bulkCommand i ⟨xor, xorInput, dontIncrement, inIsCounter⟩ s

end Sys2Proof.Machine
end

