-- ==== Sys2Proof/Machine/AesKey.lean ====
section
/-! DEFINITION. The key schedule commands: `AES_SET_KEY`, `AES_READ_RK`, `AES_CLEAR_KEY`
(spec/41_aes_key_schedule.md R140, R144, R145). -/

namespace Sys2Proof.Machine

/-- The context that holds a key: its schedule, the words past it 0 (R140, R30). -/
def keyedContext (dir : Direction) (key : List Byte) : AesCtx where
  valid := true
  dir := dir
  nr := BitVec.ofNat 4 (roundCount key)
  rk := fillBuffer 60 (keySchedule dir key) 0

/-- Whether a length is a legal key length (R140). -/
def legalKeyLength (n : Nat) : Bool := n == 16 || n == 24 || n == 32

/-- The checks of `AES_SET_KEY` (R140). -/
def setKeyChecks (s : State) : List Check :=
  [⟨!legalKeyLength s.len3, .invalidKeyLength, .a3⟩, rangeCheck s.addr0 s.len3 .a0]

/-- `AES_SET_KEY` (R140). -/
def execAesSetKey (i : BitVec 4) (dir : Direction) (s : State) : Host.Outcome State Fault Refusal :=
  let key := s.mem.readN s.addr0 s.len3
  s.guarded (setKeyChecks s)
    ((s.setAesCtx i (keyedContext dir key)).finish (BitVec.ofNat 32 (roundCount key)))

/-- The bytes of the first `n` words of a schedule, each most significant byte first (R144). -/
def scheduleBytes (rk : List Word) (n : Nat) : List Byte := (rk.take n).flatMap bytes32

/-- The number of schedule words a context uses: `4(Nr+1)` (R30, R144). -/
def AesCtx.wordCount (c : AesCtx) : Nat := 4 * (c.nr.toNat + 1)

/-- The checks of `AES_READ_RK` (R144). -/
def readRkChecks (i : BitVec 4) (s : State) : List Check :=
  [⟨!(s.aesCtx i).valid, .notReady, .inst⟩, rangeCheck s.addr2 (4 * (s.aesCtx i).wordCount) .a2]

/-- `AES_READ_RK` (R144): the words go out in ascending order, so the writes are one ascending write. -/
def execAesReadRk (i : BitVec 4) (s : State) : Host.Outcome State Fault Refusal :=
  let c := s.aesCtx i
  s.guarded (readRkChecks i s)
    ((s.setMem (s.mem.writeN s.addr2 (scheduleBytes c.rk.toList c.wordCount))).finish (c.nr.setWidth 32))

/-- `AES_CLEAR_KEY` (R145): the context returns to its reset value, whether or not it held a key. -/
def execAesClearKey (i : BitVec 4) (s : State) : Host.Outcome State Fault Refusal :=
  s.guarded [] ((s.setAesCtx i AesCtx.empty).finish 0)

end Sys2Proof.Machine
end

