-- ==== Sys2Proof/Machine/Put.lean ====
section
/-! DEFINITION. The output port's handshake and the skeleton that the three put commands share
(spec/44_filter_interface.md R190 to R198). A put works on its instance, its port and its input cursor
only; `State.put` carries them back into the state. -/

namespace Sys2Proof.Machine

/-! ### Offers and emissions -/

/-- How a part of a put ends: it goes on; it stalls (R194); or, blocking, its sink has not taken all and
no answer is listed, and the command stays `BUSY` until the engine's next turn (R193, log 5). -/
inductive Flow where
  | go
  | stall
  | wait
  deriving DecidableEq, Repr

/-- What a sink takes of an offer when its answer is `t`: at most what is offered (R191, log 5). -/
def takenOf (t : Nat) (d : List Byte) : Nat := min t d.length

/-- The history after an emission of level `lvl` has completed: `End(lvl)` if `lvl ≥ 1` (R192). -/
def completed (h : List Event) (lvl : Nat) : List Event := if 1 ≤ lvl then h ++ [.ended lvl] else h

/-- How a part of a put ends when its last listed answer is used up and bytes are left (R193, R194). -/
def unfinished (blocking : Bool) : Flow := if blocking then .wait else .stall

/-- `Emit` (R192) against the sink's answers: how it ended, the port, and `pend_off`. A blocking
emission re-offers the untaken rest (R193); a non-blocking one stalls after one offer (R194). When no
answer is listed the sink answers with a free value, once in a turn of the engine (R191, log 5). -/
def emitLoop (d : List Byte) (lvl : Nat) (blocking : Bool) (sink : Nat → Nat) (drawn : Nat) :
    List Nat → List Event → Nat → Flow × Port × Nat
  | [], h, off =>
    let rest := d.drop off
    let k := takenOf (sink drawn) rest
    let h' := h ++ [.offer rest lvl blocking k]
    if off + k = d.length then (.go, ⟨completed h' lvl, [], drawn + 1⟩, off + k)
    else (unfinished blocking, ⟨h', [], drawn + 1⟩, off + k)
  | t :: ts, h, off =>
    let rest := d.drop off
    let k := takenOf t rest
    let h' := h ++ [.offer rest lvl blocking k]
    if off + k = d.length then (.go, ⟨completed h' lvl, ts, drawn⟩, off + k)
    else if blocking then emitLoop d lvl blocking sink drawn ts h' (off + k)
    else (.stall, ⟨h', ts, drawn⟩, off + k)

/-- `Emit(port, d, lvl, blocking, pend_off)` (R192). -/
def emit (d : List Byte) (lvl : Nat) (blocking : Bool) (sink : Nat → Nat) (p : Port) (off : Nat) :
    Flow × Port × Nat :=
  emitLoop d lvl blocking sink p.drawn p.answers p.history off

/-! ### The skeleton -/

/-- What a put works on: its instance, its port, and the input cursor `pos` (R196). -/
structure PutRun (U : Type) where
  unit : U
  port : Port
  pos : Nat

/-- The operands of a put (R196). -/
structure PutJob where
  mem : Memory
  base : Nat
  n : Nat
  blocking : Bool
  mel : Nat
  /-- the sink's free answers (log 5) -/
  sink : Nat → Nat

/-- Input byte `pos`, read from memory (R196). -/
def PutJob.byteAt (j : PutJob) (pos : Nat) : Byte := j.mem.read (j.base + pos)

/-- The parts of R196's skeleton that a unit supplies. -/
structure PutUnit (U : Type) where
  /-- `U.valid` -/
  valid : U → Bool
  /-- `U.fsm = IDLE` -/
  idle : U → Bool
  /-- the bytes of the pending emission -/
  pending : U → List Byte
  /-- its level, `U.pend_mel` -/
  pendMel : U → Nat
  /-- how many of its bytes the sink has taken, `U.pend_off` -/
  pendOff : U → Nat
  setPendOff : U → Nat → U
  /-- whether the pending emission is an end-of-message emission -/
  endsMessage : U → Bool
  /-- `complete(U)` -/
  complete : U → U
  /-- the first lines of `END_OF_MESSAGE(U, mel)`: the end-of-message emission becomes pending -/
  beginEnd : U → Nat → U

/-- The pending emission is offered to the sink; once it is all taken, the unit completes it. -/
def PutUnit.flush {U : Type} (u : PutUnit U) (j : PutJob) (r : PutRun U) : Flow × PutRun U :=
  match emit (u.pending r.unit) (u.pendMel r.unit) j.blocking j.sink r.port (u.pendOff r.unit) with
  | (.go, p, off) => (.go, { r with unit := u.complete (u.setPendOff r.unit off), port := p })
  | (f, p, off) => (f, { r with unit := u.setPendOff r.unit off, port := p })

/-- The end of R196: `END_OF_MESSAGE` when `mel ≥ 1`, its emission at level `mel - 1` (R195). -/
def PutUnit.messageEnd {U : Type} (u : PutUnit U) (j : PutJob) (r : PutRun U) : Flow × PutRun U :=
  if 1 ≤ j.mel then u.flush j { r with unit := u.beginEnd r.unit j.mel } else (.go, r)

/-- `BODY`, then the end of the message (R196). -/
def PutUnit.process {U : Type} (u : PutUnit U) (body : PutJob → PutRun U → Flow × PutRun U) (j : PutJob)
    (r : PutRun U) : Flow × PutRun U :=
  match body j r with
  | (.go, r') => u.messageEnd j r'
  | (f, r') => (f, r')

/-- The skeleton from the pending emission on (R196). A put that waits for its sink takes up here again,
from the cursor it kept: its own unfinished emission is then the pending one. -/
def PutUnit.run {U : Type} (u : PutUnit U) (body : PutJob → PutRun U → Flow × PutRun U) (j : PutJob)
    (r : PutRun U) : Flow × PutRun U :=
  if u.idle r.unit then u.process body j r
  else
    match u.flush j r with
    | (.go, r') => if u.endsMessage r.unit then (.go, r') else u.process body j r'
    | (f, r') => (f, r')

/-- The checks of a put (R196). -/
def putChecks {U : Type} (u : PutUnit U) (unit : U) (s : State) : List Check :=
  [⟨!u.valid unit, .notReady, .inst⟩, rangeCheck s.addr0 s.len3 .a0]

/-- The operands of the running put on instance `i` of a unit (R196). -/
def State.putJob (s : State) (which : FilterUnit) (i : BitVec 4) (blocking : Bool) (mel : Byte) : PutJob :=
  ⟨s.mem, s.addr0, s.len3, blocking, messageEndLevel mel, Config.sinkTakes which i.toNat⟩

/-- The residual `n - pos` as `RESULT` holds it (R198). -/
def residual (n pos : Nat) : Word := BitVec.ofNat 32 (n - pos)

/-- How the run of a put ends the step: an end, a stall, or a wait with the command still `BUSY`, which
keeps its cursor and the count of the events it has recorded, `recorded` of them in this turn. -/
def State.endPut (s : State) (f : Flow) (pos recorded : Nat) : State :=
  match f with
  | .go => s.finish (residual s.len3 pos)
  | .stall => s.stall (residual s.len3 pos)
  | .wait => s.setProgress pos (s.latch.events + recorded)

/-- A put command (R196) with operands `j` on the instance and port that `INST` names; `store` puts them
back. -/
def State.put {U : Type} (s : State) (u : PutUnit U) (body : PutJob → PutRun U → Flow × PutRun U)
    (j : PutJob) (unit : U) (port : Port) (store : State → U → Port → State) :
    Host.Outcome State Fault Refusal :=
  let res := u.run body j ⟨unit, port, s.latch.pos⟩
  s.guarded (putChecks u unit s)
    ((store s res.2.unit res.2.port).endPut res.1 res.2.pos (res.2.port.history.length - port.history.length))

/-! ### Output streams (R46, R190) -/

/-- An item of an output stream (R46). -/
inductive StreamItem where
  | byte (v : Byte)
  | ended (level : Nat)
  deriving DecidableEq, Repr

/-- An event's part of the output stream: an offer's taken bytes, or the end (R46). -/
def Event.items : Event → List StreamItem
  | .offer bytes _ _ taken => (bytes.take taken).map .byte
  | .ended level => [.ended level]

/-- The output stream of a history (R46, R190). -/
def streamOf (h : List Event) : List StreamItem := h.flatMap Event.items

end Sys2Proof.Machine
end

