-- ==== Sys2Proof/Machine/Decoder.lean ====
section
/-! DEFINITION. The BaseN decoder: `BDEC_BUILD_LOOKUP`, `BDEC_INIT` and `BDEC_PUT`
(spec/46_basen_decoder.md R230 to R235). -/

namespace Sys2Proof.Machine

/-! ### Building the lookup table (R230) -/

/-- `IsLetter(c)`: ASCII letters only (R230). -/
def isLetter (c : Byte) : Bool :=
  (decide (0x41#8 ≤ c) && decide (c ≤ 0x5A#8)) || (decide (0x61#8 ≤ c) && decide (c ≤ 0x7A#8))

/-- The slots of a symbol, upper case first (R230). -/
def slotsOf (caseInsensitive : Bool) (c : Byte) : List Byte :=
  if caseInsensitive && isLetter c then [c &&& 0xDF#8, c ||| 0x20#8] else [c]

/-- The builder's internal scratch: the table and which slots are used (R230). -/
structure LookupScratch where
  table : Vector Byte 256
  used : Vector Bool 256
  deriving DecidableEq, Repr

/-- The scratch before any symbol: every entry the sentinel `0xFF` (R230). -/
def LookupScratch.start : LookupScratch := ⟨Vector.replicate 256 0xFF#8, Vector.replicate 256 false⟩

/-- The slots of symbol `v` filled in order; `none` if one of them is used already (R230). -/
def fillSlots (v : Nat) : List Byte → LookupScratch → Option LookupScratch
  | [], l => some l
  | q :: qs, l =>
    if entry l.used q.toNat false then none
    else fillSlots v qs ⟨setEntry l.table q.toNat (BitVec.ofNat 8 v), setEntry l.used q.toNat true⟩

/-- R230's loop over the symbols, the next of which has the value `v`. -/
def buildLoop (caseInsensitive : Bool) : Nat → List Byte → LookupScratch → Option LookupScratch
  | _, [], l => some l
  | v, c :: cs, l =>
    match fillSlots v (slotsOf caseInsensitive c) l with
    | none => none
    | some l' => buildLoop caseInsensitive (v + 1) cs l'

/-- The table of an alphabet; `none` if a slot would be written twice (R230). -/
def buildLookup (caseInsensitive : Bool) (alphabet : List Byte) : Option LookupScratch :=
  buildLoop caseInsensitive 0 alphabet LookupScratch.start

/-- The number of slots written (R230). -/
def LookupScratch.slotCount (l : LookupScratch) : Nat := l.used.toList.count true

/-- The checks of `BDEC_BUILD_LOOKUP` (R230). -/
def buildLookupChecks (caseInsensitive : Bool) (s : State) : List Check :=
  [⟨decide (128 < s.len3), .invalidArgument, .a3⟩, rangeCheck s.addr0 s.len3 .a0, rangeCheck s.addr2 256 .a2,
    ⟨(buildLookup caseInsensitive (s.mem.readN s.addr0 s.len3)).isNone, .duplicateSymbol, .a0⟩]

/-- `BDEC_BUILD_LOOKUP` (R230): the alphabet is read and the table built before anything is written. -/
def execBdecBuildLookup (caseInsensitive : Bool) (s : State) : Host.Outcome State Fault Refusal :=
  let l := (buildLookup caseInsensitive (s.mem.readN s.addr0 s.len3)).getD LookupScratch.start
  s.guarded (buildLookupChecks caseInsensitive s)
    ((s.setMem (s.mem.writeN s.addr2 l.table.toList)).finish (BitVec.ofNat 32 l.slotCount))

/-! ### Configuration (R231) -/

/-- The decoder that `BDEC_INIT` configures (R231). -/
def configuredDecoder (b : Nat) (lookup : List Byte) : Decoder :=
  { Decoder.empty with
    valid := true
    b := b
    lookup := fillBuffer 256 lookup 0xFF#8
    obs := decoderBlockSize b }

/-- The checks of `BDEC_INIT` (R231). -/
def bdecInitChecks (bpc : BitVec 3) (lookupPresent : Bool) (s : State) : List Check :=
  [⟨!lookupPresent, .invalidArgument, .flags⟩,
    ⟨decide (bitsPerChar bpc < 1 ∨ 7 < bitsPerChar bpc), .invalidArgument, .flags⟩,
    rangeCheck s.addr0 256 .a0]

/-- `BDEC_INIT` (R231). It discards every cursor and pending emission of the instance (R200). -/
def execBdecInit (i : BitVec 4) (bpc : BitVec 3) (lookupPresent : Bool) (s : State) :
    Host.Outcome State Fault Refusal :=
  let d := configuredDecoder (bitsPerChar bpc) (s.mem.readN s.addr0 256)
  s.guarded (bdecInitChecks bpc lookupPresent s) ((s.setDecoder i d).finish (BitVec.ofNat 32 d.obs))

/-! ### Decoding (R232 to R234) -/

/-- `ResetCursors(D)` (R232). -/
def Decoder.resetCursors (d : Decoder) : Decoder :=
  { d with outBuf := Vector.replicate 7 0, bytePos := 0, bitPos := 0, fsm := .idle, pendLen := 0, pendOff := 0, pendMel := 0 }

/-- One bit of `Accumulate` (R233): it goes to position `7 - bit_pos` of the current byte. -/
def accumulateBit (d : Decoder) (bit : Bool) : Decoder :=
  let byte := entry d.outBuf d.bytePos 0 ||| ((if bit then 1#8 else 0#8) <<< (7 - d.bitPos))
  let d' := { d with outBuf := setEntry d.outBuf d.bytePos byte }
  if d.bitPos + 1 = 8 then { d' with bitPos := 0, bytePos := d.bytePos + 1 }
  else { d' with bitPos := d.bitPos + 1 }

/-- `Accumulate(D, v)`: the `b` bits of `v`, most significant first (R233). -/
def accumulate (d : Decoder) (v : Byte) : Decoder :=
  (List.range d.b).reverse.foldl (fun d k => accumulateBit d (v.getLsbD k)) d

/-- The full output group becomes pending (R232). -/
def Decoder.openBlock (d : Decoder) : Decoder :=
  { d with fsm := .pendBlock, pendLen := d.obs, pendOff := 0, pendMel := 0 }

/-- The first lines of `END_OF_MESSAGE(D, mel)`: the whole bytes become pending at level `mel - 1`, the
partial byte is dropped (R234, 90_conflicts.md C8). -/
def Decoder.openEnd (d : Decoder) (mel : Nat) : Decoder :=
  { d with fsm := .pendEom, pendLen := d.bytePos, pendOff := 0, pendMel := mel - 1 }

/-- The decoder's parts of the put skeleton (R232, R234). -/
def decoderUnit : PutUnit Decoder where
  valid d := d.valid
  idle d := d.fsm == .idle
  pending d := d.outBuf.toList.take d.pendLen
  pendMel d := d.pendMel
  pendOff d := d.pendOff
  setPendOff d off := { d with pendOff := off }
  endsMessage d := d.fsm == .pendEom
  complete d := d.resetCursors
  beginEnd d mel := d.openEnd mel

/-- `v >= 2^b`: the input byte is skipped (R233). -/
def Decoder.skips (d : Decoder) (v : Byte) : Bool := decide (2 ^ d.b ≤ v.toNat)

/-- R232's loop over the next `count` input bytes. -/
def decoderLoop (j : PutJob) : Nat → PutRun Decoder → Flow × PutRun Decoder
  | 0, r => (.go, r)
  | count + 1, r =>
    let v := entry r.unit.lookup (j.byteAt r.pos).toNat 0xFF#8
    if r.unit.skips v then decoderLoop j count { r with pos := r.pos + 1 }
    else
      let d := accumulate r.unit v
      if d.bytePos = d.obs then
        match decoderUnit.flush j { r with unit := d.openBlock, pos := r.pos + 1 } with
        | (.go, r') => decoderLoop j count r'
        | (f, r') => (f, r')
      else decoderLoop j count { r with unit := d, pos := r.pos + 1 }

/-- `BODY(D)` (R232). -/
def decoderBody (j : PutJob) (r : PutRun Decoder) : Flow × PutRun Decoder := decoderLoop j (j.n - r.pos) r

/-- `BDEC_PUT` (R232). -/
def execBdecPut (i : BitVec 4) (blocking : Bool) (mel : Byte) (s : State) : Host.Outcome State Fault Refusal :=
  s.put decoderUnit decoderBody (s.putJob .decoder i blocking mel) (s.decoder i) (s.portD i)
    (fun t d p => (t.setDecoder i d).setPortD i p)

end Sys2Proof.Machine
end

