-- ==== Sys2Proof/Machine/Encoder.lean ====
section
/-! DEFINITION. The BaseN encoder: `BENC_INIT` and `BENC_PUT` (spec/45_basen_encoder.md R210 to R215). -/

namespace Sys2Proof.Machine

/-! ### Configuration -/

/-- The encoder that `BENC_INIT` configures (R211). -/
def configuredEncoder (b : Nat) (padEn : Bool) (padByte : Byte) (alphabet : List Byte) : Encoder :=
  { Encoder.empty with
    valid := true
    b := b
    alphabet := fillBuffer 128 alphabet 0
    padEn := padEn
    padByte := if padEn then padByte else 0
    obs := encoderBlockSize b }

/-- The checks of `BENC_INIT` (R211): no alphabet, `BPC` not in 1 to 7, the alphabet's range. -/
def bencInitChecks (bpc : BitVec 3) (alphabetPresent : Bool) (s : State) : List Check :=
  [⟨!alphabetPresent, .invalidArgument, .flags⟩,
    ⟨decide (bitsPerChar bpc < 1 ∨ 7 < bitsPerChar bpc), .invalidArgument, .flags⟩,
    rangeCheck s.addr0 (2 ^ bitsPerChar bpc) .a0]

/-- `BENC_INIT` (R211). It discards every cursor and pending emission of the instance (R200). -/
def execBencInit (i : BitVec 4) (bpc : BitVec 3) (alphabetPresent paddingPresent padFalse : Bool)
    (padByte : Byte) (s : State) : Host.Outcome State Fault Refusal :=
  let b := bitsPerChar bpc
  let e := configuredEncoder b (paddingPresent && !padFalse) padByte (s.mem.readN s.addr0 (2 ^ b))
  s.guarded (bencInitChecks bpc alphabetPresent s)
    ((s.setEncoder i e).finish (BitVec.ofNat 32 e.obs))

/-! ### Bit packing -/

/-- `ResetCursors(E)` (R212). -/
def Encoder.resetCursors (e : Encoder) : Encoder :=
  { e with outBuf := Vector.replicate 8 0, bytePos := 0, bitPos := 0, fsm := .idle, pendLen := 0, pendOff := 0, pendMel := 0 }

/-- One bit of `PackByte` (R213, 90_conflicts.md C9): it goes to position `b - 1 - bit_pos` of the
current symbol. -/
def packBit (e : Encoder) (bit : Bool) : Encoder :=
  let symbol := entry e.outBuf e.bytePos 0 ||| ((if bit then 1#8 else 0#8) <<< (e.b - 1 - e.bitPos))
  let e' := { e with outBuf := setEntry e.outBuf e.bytePos symbol }
  if e.bitPos + 1 = e.b then { e' with bitPos := 0, bytePos := e.bytePos + 1 }
  else { e' with bitPos := e.bitPos + 1 }

/-- `PackByte(E, v)`: the bits of `v`, most significant first (R213). -/
def packByte (e : Encoder) (v : Byte) : Encoder :=
  [7, 6, 5, 4, 3, 2, 1, 0].foldl (fun e k => packBit e (v.getLsbD k)) e

/-- `out_buf[j] <- alphabet[out_buf[j]]` for the first `n` entries, in order (R214, R215). -/
def translate (alphabet : Vector Byte 128) (n : Nat) (buf : Vector Byte 8) : Vector Byte 8 :=
  (List.range n).foldl (fun v j => setEntry v j (entry alphabet (entry v j 0).toNat 0)) buf

/-- The first lines of `EmitBlock(E)`: the full block becomes pending (R214). -/
def Encoder.openBlock (e : Encoder) : Encoder :=
  { e with
    outBuf := translate e.alphabet e.obs e.outBuf
    fsm := .pendBlock
    pendLen := e.obs
    pendOff := 0
    pendMel := 0 }

/-- `out_buf[j] <- pad_byte` for `j` from `start` up to `stop - 1` (R215). -/
def padFrom (padByte : Byte) (start stop : Nat) (buf : Vector Byte 8) : Vector Byte 8 :=
  (List.range (stop - start)).foldl (fun v j => setEntry v (start + j) padByte) buf

/-- The first lines of `END_OF_MESSAGE(E, mel)`: the last symbols, padded if padding is on, become
pending at level `mel - 1` (R215). -/
def Encoder.openEnd (e : Encoder) (mel : Nat) : Encoder :=
  let count := if 0 < e.bitPos then e.bytePos + 1 else e.bytePos
  let padded := e.padEn && decide (0 < count)
  let symbols := translate e.alphabet count e.outBuf
  { e with
    outBuf := if padded then padFrom e.padByte count e.obs symbols else symbols
    bytePos := count
    bitPos := 0
    fsm := .pendEom
    pendLen := if padded then e.obs else count
    pendOff := 0
    pendMel := mel - 1 }

/-! ### The put command -/

/-- The encoder's parts of the put skeleton (R212, R215). -/
def encoderUnit : PutUnit Encoder where
  valid e := e.valid
  idle e := e.fsm == .idle
  pending e := e.outBuf.toList.take e.pendLen
  pendMel e := e.pendMel
  pendOff e := e.pendOff
  setPendOff e off := { e with pendOff := off }
  endsMessage e := e.fsm == .pendEom
  complete e := e.resetCursors
  beginEnd e mel := e.openEnd mel

/-- R212's loop over the next `count` input bytes. -/
def encoderLoop (j : PutJob) : Nat → PutRun Encoder → Flow × PutRun Encoder
  | 0, r => (.go, r)
  | count + 1, r =>
    let e := packByte r.unit (j.byteAt r.pos)
    if e.bytePos = e.obs then
      match encoderUnit.flush j { r with unit := e.openBlock, pos := r.pos + 1 } with
      | (.go, r') => encoderLoop j count r'
      | (f, r') => (f, r')
    else encoderLoop j count { r with unit := e, pos := r.pos + 1 }

/-- `BODY(E)` (R212). -/
def encoderBody (j : PutJob) (r : PutRun Encoder) : Flow × PutRun Encoder := encoderLoop j (j.n - r.pos) r

/-- `BENC_PUT` (R212). -/
def execBencPut (i : BitVec 4) (blocking : Bool) (mel : Byte) (s : State) : Host.Outcome State Fault Refusal :=
  s.put encoderUnit encoderBody (s.putJob .encoder i blocking mel) (s.encoder i) (s.portE i)
    (fun t e p => (t.setEncoder i e).setPortE i p)

end Sys2Proof.Machine
end

