-- ==== Sys2Proof/Machine/Grouper.lean ====
section
/-! DEFINITION. The Grouper: `GRP_INIT` and `GRP_PUT` (spec/47_grouper.md R250 to R254). -/

namespace Sys2Proof.Machine

/-! ### Configuration (R250) -/

/-- The Grouper that `GRP_INIT` configures; an absent string is empty (R250). -/
def configuredGrouper (groupSize : Word) (sep term : List Byte) : Grouper :=
  { Grouper.empty with
    valid := true
    groupSize := groupSize
    sep := fillBuffer _ sep 0
    sepLen := sep.length
    term := fillBuffer _ term 0
    termLen := term.length }

/-- The checks of `GRP_INIT` (R250). -/
def grpInitChecks (sepPresent termPresent : Bool) (s : State) : List Check :=
  [⟨decide (0 < s.param5.toNat) && !sepPresent, .invalidArgument, .flags⟩,
    ⟨sepPresent && decide (Config.params.maxStr < s.len3), .invalidArgument, .a3⟩,
    ⟨termPresent && decide (Config.params.maxStr < s.len4), .invalidArgument, .a4⟩]
    ++ (if sepPresent then [rangeCheck s.addr0 s.len3 .a0] else [])
    ++ (if termPresent then [rangeCheck s.addr1 s.len4 .a1] else [])

/-- `GRP_INIT` (R250). It discards every cursor and pending emission of the instance (R200). -/
def execGrpInit (i : BitVec 4) (sepPresent termPresent : Bool) (s : State) : Host.Outcome State Fault Refusal :=
  let sep := if sepPresent then s.mem.readN s.addr0 s.len3 else []
  let term := if termPresent then s.mem.readN s.addr1 s.len4 else []
  s.guarded (grpInitChecks sepPresent termPresent s)
    ((s.setGrouper i (configuredGrouper s.param5 sep term)).finish 0)

/-! ### Forwarding (R251 to R254) -/

/-- The bytes of the pending emission: the separator or the terminator (R45). -/
def Grouper.pendingBytes (g : Grouper) : List Byte :=
  match g.fsm with
  | .idle => []
  | .pendSep => g.sep.toList.take g.sepLen
  | .pendTerm => g.term.toList.take g.termLen

/-- `complete(G)` (R251): a new group or a new message starts. -/
def Grouper.complete (g : Grouper) : Grouper := { g with fsm := .idle, pendOff := 0, pendMel := 0, counter := 0 }

/-- The first line of `EmitSeparator(G)` (R253). -/
def Grouper.openSeparator (g : Grouper) : Grouper := { g with fsm := .pendSep, pendOff := 0, pendMel := 0 }

/-- The first line of `END_OF_MESSAGE(G, mel)` (R254). -/
def Grouper.openEnd (g : Grouper) (mel : Nat) : Grouper := { g with fsm := .pendTerm, pendOff := 0, pendMel := mel - 1 }

/-- The Grouper's parts of the put skeleton (R251, R254). -/
def grouperUnit : PutUnit Grouper where
  valid g := g.valid
  idle g := g.fsm == .idle
  pending g := g.pendingBytes
  pendMel g := g.pendMel
  pendOff g := g.pendOff
  setPendOff g off := { g with pendOff := off }
  endsMessage g := g.fsm == .pendTerm
  complete g := g.complete
  beginEnd g mel := g.openEnd mel

/-- `counter + t`, when grouping is on (R252). -/
def Grouper.count (g : Grouper) (t : Nat) : Grouper :=
  if 0 < g.groupSize.toNat then { g with counter := g.counter + t } else g

/-- `ForwardData` (R252) with `left` bytes of its chunk not yet taken, against the sink's answers: each
offer reads the bytes from memory again, and the bytes taken are consumed. When no answer is listed the
sink answers with a free value, once in a turn of the engine (R191, log 5). -/
def forwardLoop (j : PutJob) (drawn : Nat) :
    List Nat → List Event → Nat → Grouper → Nat → Flow × PutRun Grouper
  | [], h, left, g, pos =>
    let d := j.mem.readN (j.base + pos) left
    let k := takenOf (j.sink drawn) d
    let h' := h ++ [.offer d 0 j.blocking k]
    if k = left then (.go, ⟨g.count k, ⟨h', [], drawn + 1⟩, pos + k⟩)
    else (unfinished j.blocking, ⟨g.count k, ⟨h', [], drawn + 1⟩, pos + k⟩)
  | t :: ts, h, left, g, pos =>
    let d := j.mem.readN (j.base + pos) left
    let k := takenOf t d
    let h' := h ++ [.offer d 0 j.blocking k]
    if k = left then (.go, ⟨g.count k, ⟨h', ts, drawn⟩, pos + k⟩)
    else if j.blocking then forwardLoop j drawn ts h' (left - k) (g.count k) (pos + k)
    else (.stall, ⟨g.count k, ⟨h', ts, drawn⟩, pos + k⟩)

/-- `ForwardData(G, m)` (R252). -/
def forwardData (j : PutJob) (m : Nat) (r : PutRun Grouper) : Flow × PutRun Grouper :=
  forwardLoop j r.port.drawn r.port.answers r.port.history m r.unit r.pos

/-- The separator, when the group is full and an input byte is left to follow it (R251, R253). -/
def separate (j : PutJob) (r : PutRun Grouper) : Flow × PutRun Grouper :=
  if r.unit.counter = r.unit.groupSize.toNat then
    grouperUnit.flush j { r with unit := r.unit.openSeparator }
  else (.go, r)

/-- R251's loop for `group_size > 0`; each pass forwards at least one byte, so that `n - pos` passes are
enough. -/
def groupLoop (j : PutJob) : Nat → PutRun Grouper → Flow × PutRun Grouper
  | 0, r => (.go, r)
  | fuel + 1, r =>
    if r.pos < j.n then
      match separate j r with
      | (.go, r') =>
        match forwardData j (min (j.n - r'.pos) (r'.unit.groupSize.toNat - r'.unit.counter)) r' with
        | (.go, r'') => groupLoop j fuel r''
        | (f, r'') => (f, r'')
      | (f, r') => (f, r')
    else (.go, r)

/-- `BODY(G)` (R251). -/
def grouperBody (j : PutJob) (r : PutRun Grouper) : Flow × PutRun Grouper :=
  if r.unit.groupSize.toNat = 0 then
    if r.pos < j.n then forwardData j (j.n - r.pos) r else (.go, r)
  else groupLoop j (j.n - r.pos) r

/-- `GRP_PUT` (R251). -/
def execGrpPut (i : BitVec 4) (blocking : Bool) (mel : Byte) (s : State) : Host.Outcome State Fault Refusal :=
  s.put grouperUnit grouperBody (s.putJob .grouper i blocking mel) (s.grouper i) (s.portG i)
    (fun t g p => (t.setGrouper i g).setPortG i p)

end Sys2Proof.Machine
end

