-- ==== Sys2Proof/Machine/Dispatch.lean ====
section
/-! DEFINITION. The engine's run of a decoded command (spec/00_scope.md R8): one arm per row of
spec/opcode_table.json. -/

namespace Sys2Proof.Machine

def exec (i : Instr) (s : State) : Host.Outcome State Fault Refusal :=
  match i with
  | .aesSetKey n d => Sys2Proof.Machine.execAesSetKey n d s
  | .aesProcessBlock n x => Sys2Proof.Machine.execAesProcessBlock n x s
  | .aesProcessBlocks n x y d c => Sys2Proof.Machine.execAesProcessBlocks n x y d c s
  | .aesReadRk n => Sys2Proof.Machine.execAesReadRk n s
  | .aesClearKey n => Sys2Proof.Machine.execAesClearKey n s
  | .bencInit n b a p f q => Sys2Proof.Machine.execBencInit n b a p f q s
  | .bencPut n k m => Sys2Proof.Machine.execBencPut n k m s
  | .bdecBuildLookup c => Sys2Proof.Machine.execBdecBuildLookup c s
  | .bdecInit n b l => Sys2Proof.Machine.execBdecInit n b l s
  | .bdecPut n k m => Sys2Proof.Machine.execBdecPut n k m s
  | .grpInit n p t => Sys2Proof.Machine.execGrpInit n p t s
  | .grpPut n k m => Sys2Proof.Machine.execGrpPut n k m s

end Sys2Proof.Machine
end

