-- ==== Sys2Proof/Machine/HostBus.lean ====
section
/-! DEFINITION. Everything a step does beside a decoded command: the engine's turn, the host's register
and memory accesses (spec/10_state.md R20 to R26, spec/20_memory.md R65, R68, R69, spec/30_encoding.md
R93), the sinks' answers (spec/44_filter_interface.md R191) and reset (spec/70_reset_and_hazards.md
R300, R301). -/

namespace Sys2Proof.Machine

/-! ### The engine's turn -/

/-- The engine runs the latched command word while `BUSY = 1`: an illegal word raises `ILLEGAL_COMMAND`
(R88, R90). While `BUSY = 0` it waits for a write to `CMD` and nothing changes (R300). -/
def State.engineTurn (s : State) : Host.Outcome State Fault Refusal :=
  if s.status.busy then
    match decode s.latch.cmd with
    | .error e => .next (s.raise .illegalCommand (decodeErrorArg e))
    | .ok i => exec i s
  else .next s

/-! ### Register accesses (R20, R65) -/

/-- The accesses R65 defines: 32 bits wide, at a multiple of 4 inside the block. -/
def legalAccess (offset width : Nat) : Bool := width == 32 && offset % 4 == 0 && decide (offset ≤ 0x3C)

/-- The value a read of the register at `offset` returns (R20 to R26); reads have no side effect. -/
def State.readRegister (s : State) (offset : Nat) : Word :=
  match offset with
  | 0x04 => s.status.toWord
  | 0x08 => s.args.a0
  | 0x0C => s.args.a1
  | 0x10 => s.args.a2
  | 0x14 => s.args.a3
  | 0x18 => s.args.a4
  | 0x1C => s.args.a5
  | 0x20 => s.result
  | 0x24 => idWord Config.params
  | _ => 0

/-- A write to `CMD`: it starts a command, or, while `BUSY = 1`, is ignored and sets `OVERRUN` (R21). -/
def State.writeCmd (s : State) (w : Word) : State :=
  if s.status.busy then { s with status := { s.status with overrun := true } } else s.startCommand w

/-- A write to `STATUS`: bit 3 set clears `OVERRUN`; all other bits are ignored (R22). -/
def State.writeStatus (s : State) (w : Word) : State :=
  if w.getLsbD 3 then { s with status := { s.status with overrun := false } } else s

/-- The effect of a write of `w` to the register at `offset` (R20 to R26, R27: the registers a host can
write are `CMD`, `STATUS.OVERRUN` and `A0` to `A5`; log 3). -/
def State.writeRegister (s : State) (offset : Nat) (w : Word) : State :=
  match offset with
  | 0x00 => s.writeCmd w
  | 0x04 => s.writeStatus w
  | 0x08 => { s with args := { s.args with a0 := w } }
  | 0x0C => { s with args := { s.args with a1 := w } }
  | 0x10 => { s with args := { s.args with a2 := w } }
  | 0x14 => { s with args := { s.args with a3 := w } }
  | 0x18 => { s with args := { s.args with a4 := w } }
  | 0x1C => { s with args := { s.args with a5 := w } }
  | _ => s

/-- `WR` (R93). -/
def State.busWrite (s : State) (offset width : Nat) (w : Word) : Host.Outcome State Fault Refusal :=
  if legalAccess offset width then .next (s.writeRegister offset w) else .refused (.registerAccess offset width)

/-- `RD` (R93). -/
def State.busRead (s : State) (offset width : Nat) : Host.Outcome State Fault Refusal :=
  if legalAccess offset width then .next { s with rdData := s.readRegister offset }
  else .refused (.registerAccess offset width)

/-! ### The buffers of the running command (R69) -/

/-- A range of addresses: its base and its length. -/
abbrev AddrRange := Nat × Nat

/-- Whether an address lies in one of the ranges. -/
def inRanges (rs : List AddrRange) (a : Nat) : Bool := rs.any (fun r => decide (r.1 ≤ a ∧ a < r.1 + r.2))

/-- The ranges a command writes, from its operands (R87 and the command rules). -/
def destinations (i : Instr) (s : State) : List AddrRange :=
  match i with
  | .aesProcessBlock _ _ => [(s.addr2, 16)]
  | .aesProcessBlocks _ x y d c =>
    let f : BulkFlags := ⟨x, y, d, c⟩
    if 0 < s.blockCount then
      (s.addr2, bulkOutLength f s.blockCount) :: (if c then [(s.addr0, 16)] else [])
    else []
  | .aesReadRk n => [(s.addr2, 4 * (s.aesCtx n).wordCount)]
  | .bdecBuildLookup _ => [(s.addr2, 256)]
  | .aesSetKey _ _ => []
  | .aesClearKey _ => []
  | .bencInit _ _ _ _ _ _ => []
  | .bencPut _ _ _ => []
  | .bdecInit _ _ _ => []
  | .bdecPut _ _ _ => []
  | .grpInit _ _ _ => []
  | .grpPut _ _ _ => []

/-- The ranges a command reads, from its operands (R87 and the command rules). DESIGN CHOICE (log 10): an
optional parameter whose flag says that it is not given, the alphabet, the lookup table, the separator, the
terminator or the xor block, names no buffer; every other parameter names its buffer, also where the command
is going to raise an error before it reads. -/
def sources (i : Instr) (s : State) : List AddrRange :=
  match i with
  | .aesSetKey _ _ => [(s.addr0, s.len3)]
  | .aesProcessBlock _ x => (s.addr0, 16) :: (if x then [(s.addr1, 16)] else [])
  | .aesProcessBlocks _ x y d c =>
    let f : BulkFlags := ⟨x, y, d, c⟩
    if 0 < s.blockCount then
      (s.addr0, bulkInLength f s.blockCount) :: (if x then [(s.addr1, 16 * s.blockCount)] else [])
    else []
  | .aesReadRk _ => []
  | .aesClearKey _ => []
  | .bencInit _ b a _ _ _ => if a then [(s.addr0, 2 ^ bitsPerChar b)] else []
  | .bencPut _ _ _ => [(s.addr0, s.len3)]
  | .bdecBuildLookup _ => [(s.addr0, s.len3)]
  | .bdecInit _ _ l => if l then [(s.addr0, 256)] else []
  | .bdecPut _ _ _ => [(s.addr0, s.len3)]
  | .grpInit _ p t => (if p then [(s.addr0, s.len3)] else []) ++ (if t then [(s.addr1, s.len4)] else [])
  | .grpPut _ _ _ => [(s.addr0, s.len3)]

/-- The command that runs, if one does and its word is legal. -/
def State.running (s : State) : Option Instr :=
  if s.status.busy then
    match decode s.latch.cmd with
    | .ok i => some i
    | .error _ => none
  else none

/-- The buffers the running command names (R69). -/
def State.namedBuffers (s : State) : List AddrRange :=
  match s.running with
  | none => []
  | some i => sources i s ++ destinations i s

/-- The state the engine's next turn would leave with command `i` running: what an act in the middle of
the command may see in part. -/
def State.ranOn (s : State) (i : Instr) : State :=
  match exec i s with
  | .next t => t
  | .fault _ => s
  | .refused _ => s

/-- The ranges the running command may have written in part: its destinations, or none if it ends in an
error, which writes nothing (R272). DESIGN CHOICE (log 8): they are settled from `BUSY = 0` on (S2, R305),
also for a host that has not yet read `STATUS`, where R68 and R69 promise nothing. -/
def State.unsettled (s : State) : List AddrRange :=
  match s.running with
  | none => []
  | some i => if (s.ranOn i).status.err = .ok then destinations i s else []

/-! ### Host memory accesses (R60, R68, R69) -/

/-- Whether `n` bytes at `addr` lie in the address space. -/
def inMemory (addr n : Nat) : Bool := decide (n = 0 ∨ addr + n ≤ memSize)

/-- `STORE` (R93). A store to a byte of a buffer that the running command names is a race: refused
(R69, S1, log 10). -/
def State.hostStore (s : State) (addr : Nat) (bytes : List Byte) : Host.Outcome State Fault Refusal :=
  if !inMemory addr bytes.length then .fault (.outsideMemory addr)
  else
    match (List.range bytes.length).find? (fun i => inRanges s.namedBuffers (addr + i)) with
    | some i => .refused (.hostStoreRace (addr + i))
    | none => .next (s.setMem (s.mem.writeN addr bytes))

/-- `LOAD` (R93). A byte the running command may have written reads as any value (R69, S2, log 8). -/
def State.hostLoad (s : State) (addr n : Nat) : Host.Outcome State Fault Refusal :=
  if !inMemory addr n then .fault (.outsideMemory addr)
  else
    .next { s with
      ldData := (List.range n).map (fun i =>
        if inRanges s.unsettled (addr + i) then Config.unsettledByte s.freeCount (addr + i)
        else s.mem.read (addr + i))
      freeCount := s.freeCount + 1 }

/-! ### Sinks (R191) -/

/-- A port with one more answer of its sink. -/
def Port.addAnswer (p : Port) (t : Nat) : Port := { p with answers := p.answers ++ [t] }

/-- The sink of port `q` answers (R191). -/
def State.sinkAnswer (s : State) (q : PortId) (t : Nat) : State :=
  match q with
  | .outE i => { s with outE := setEntry s.outE i.val ((entry s.outE i.val Port.empty).addAnswer t) }
  | .outD i => { s with outD := setEntry s.outD i.val ((entry s.outD i.val Port.empty).addAnswer t) }
  | .outG i => { s with outG := setEntry s.outG i.val ((entry s.outG i.val Port.empty).addAnswer t) }

/-! ### Reset (R300, R301) -/

/-- Each address of a range made a free value. -/
def tearRange (count : Nat) (m : Memory) (r : AddrRange) : Memory :=
  (List.range r.2).foldl (fun m i => m.write (r.1 + i) (Config.tornByte count (r.1 + i))) m

/-- The memory after a reset: not touched (R300), but for the destination of a command that the reset
interrupts, whose bytes are any value (R301, S3). -/
def State.tornMemory (s : State) : Memory := s.unsettled.foldl (tearRange s.freeCount) s.mem

/-- The instance that a put works on; `none` for every other command. -/
def putInstance : Instr → Option (FilterUnit × BitVec 4)
  | .bencPut n _ _ => some (.encoder, n)
  | .bdecPut n _ _ => some (.decoder, n)
  | .grpPut n _ _ => some (.grouper, n)
  | .aesSetKey _ _ => none
  | .aesProcessBlock _ _ => none
  | .aesProcessBlocks _ _ _ _ _ => none
  | .aesReadRk _ => none
  | .aesClearKey _ => none
  | .bencInit _ _ _ _ _ _ => none
  | .bdecBuildLookup _ => none
  | .bdecInit _ _ _ => none
  | .grpInit _ _ _ => none

/-- The port of an instance. -/
def State.port (s : State) (u : FilterUnit) (n : BitVec 4) : Port :=
  match u with
  | .encoder => s.portE n
  | .decoder => s.portD n
  | .grouper => s.portG n

/-- The port of an instance replaced. -/
def State.setPort (s : State) (u : FilterUnit) (n : BitVec 4) (p : Port) : State :=
  match u with
  | .encoder => s.setPortE n p
  | .decoder => s.setPortD n p
  | .grouper => s.setPortG n p

/-- How many of the events are offers. -/
def offerCount (es : List Event) : Nat :=
  es.countP fun e => match e with
    | .offer _ _ _ _ => true
    | .ended _ => false

/-- A port with an empty history (R300). Its sink is outside the block and is not reset. -/
def Port.clear (p : Port) : Port := { p with history := [] }

/-- The port of a put that a reset interrupts (R301): the put had recorded `events` events in `p` before
this turn, and of those this turn would record, up to `after`, the first `cut` have happened, modulo their
count; the offers among these have used their answers. What earlier commands left is cleared (R300). -/
def Port.interrupt (p after : Port) (events cut : Nat) : Port :=
  let ahead := after.history.drop p.history.length
  let happened := ahead.take (cut % (ahead.length + 1))
  { history := p.history.drop (p.history.length - events) ++ happened
    answers := p.answers.drop (offerCount happened)
    drawn := p.drawn + (offerCount happened - p.answers.length) }

/-- Reset but for the port of an interrupted put (R300): every piece of the block's state takes its value
of R48; memory and the agents outside stay. -/
def State.restart (s : State) : State :=
  { State.reset with
    outE := mapBank Port.clear s.outE
    outD := mapBank Port.clear s.outD
    outG := mapBank Port.clear s.outG
    mem := s.tornMemory
    inputs := s.inputs
    rdData := s.rdData
    ldData := s.ldData
    freeCount := s.freeCount + 1 }

/-- Reset (R300, R301): the offers an interrupted put has had answered stay in its port's history, and an
offer in progress happened or did not (S3, log 9). -/
def State.applyReset (s : State) : State :=
  match s.running with
  | none => s.restart
  | some i =>
    match putInstance i with
    | none => s.restart
    | some (u, n) =>
      s.restart.setPort u n
        ((s.port u n).interrupt ((s.ranOn i).port u n) s.latch.events (Config.resetCut s.freeCount))

/-! ### One act -/

/-- One act of an outside agent, or a turn of the engine; `s` no longer lists the act. `WAIT` gives the
engine its turn, and stays listed, until `BUSY = 0` (R93). Each time it is performed it reads `STATUS`
once, so that `rdData` is left with the last read, the one with `BUSY = 0`. How many reads `WAIT` makes is
open in R93: one before each turn of the engine is the model's choice. DESIGN CHOICE, log 4. -/
def State.perform (s : State) (a : Input) : Host.Outcome State Fault Refusal :=
  match a with
  | .writeReg offset width w => s.busWrite offset width w
  | .readReg offset width => s.busRead offset width
  | .store addr bytes => s.hostStore addr bytes
  | .load addr n => s.hostLoad addr n
  | .wait =>
    let t : State := { s with rdData := s.readRegister 0x04 }
    if s.status.busy then State.engineTurn { t with inputs := .wait :: s.inputs } else .next t
  | .engine => s.engineTurn
  | .sinkAnswers q t => .next (s.sinkAnswer q t)
  | .reset => .next s.applyReset

/-- The machine with command word `w` just started and the engine's turn next. -/
def State.placeCommand (s : State) (w : Word) : State :=
  { s.startCommand w with inputs := .engine :: s.inputs }

/-- The next thing that happens: the first listed act, or the engine's turn when none is listed. -/
def State.advance (s : State) : Host.Outcome State Fault Refusal :=
  match s.inputs with
  | [] => s.engineTurn
  | a :: rest => State.perform { s with inputs := rest } a

end Sys2Proof.Machine
end

