-- ==== Sys2Proof/Machine/Step.lean ====
section
/-! DEFINITION. One step of the machine, and how the host of this pipeline places an instruction where
the next step runs it. -/

namespace Sys2Proof.Machine

/-- One step: the first listed act of the outside agents, or the engine's turn when none is listed
(spec/00_scope.md R7, spec/70_reset_and_hazards.md R304). -/
def step (s : State) : Host.Outcome State Fault Refusal := s.advance

/-- The state with command word `w` (its low `nbits` bits, the rest 0) written to `CMD` and started, so
that the very next step is the engine's run of it (spec/10_state.md R21, R28; log 4). -/
def State.withFetchWord (s : State) (nbits w : Nat) : State :=
  s.placeCommand (BitVec.ofNat 32 (w % 2 ^ nbits))

end Sys2Proof.Machine
end

