-- ==== Sys2Proof/Machine/HostProgram.lean ====
section
/-! DEFINITION. The assembler's command statements and pseudo-commands (spec/30_encoding.md R92, R93)
as lists of the host's acts, and the library's alphabets (spec/45_basen_encoder.md R216). The other host
statements of R93 are acts themselves: `WR`, `RD`, `WAIT`, `STORE`, `LOAD` are constructors of `Input`. -/

namespace Sys2Proof.Machine

/-- A mnemonic with the flag tokens R92's table gives it: a token is `true` where the statement has it. -/
inductive Mnemonic where
  | aesSetKey (dec : Bool := false)
  | aesProcessBlock (xor : Bool := false)
  | aesProcessBlocks (xor : Bool := false) (xorin : Bool := false) (noinc : Bool := false) (ctr : Bool := false)
  | aesReadRk
  | aesClearKey
  | bencInit (alpha : Bool := false) (padding : Bool := false) (nopad : Bool := false)
  | bencPut (blocking : Bool := false)
  | bdecBuildLookup (ci : Bool := false)
  | bdecInit (lut : Bool := false)
  | bdecPut (blocking : Bool := false)
  | grpInit (sep : Bool := false) (term : Bool := false)
  | grpPut (blocking : Bool := false)
  deriving DecidableEq, Repr

/-- The opcode a mnemonic stands for (R86). -/
def Mnemonic.opcode : Mnemonic → Opcode
  | .aesSetKey _ => .aesSetKey
  | .aesProcessBlock _ => .aesProcessBlock
  | .aesProcessBlocks _ _ _ _ => .aesProcessBlocks
  | .aesReadRk => .aesReadRk
  | .aesClearKey => .aesClearKey
  | .bencInit _ _ _ => .bencInit
  | .bencPut _ => .bencPut
  | .bdecBuildLookup _ => .bdecBuildLookup
  | .bdecInit _ => .bdecInit
  | .bdecPut _ => .bdecPut
  | .grpInit _ _ => .grpInit
  | .grpPut _ => .grpPut

/-- The `FLAGS` bits the tokens name (R92). -/
def Mnemonic.flags : Mnemonic → BitVec 8
  | .aesSetKey dec => flagsByte false false false false false false false dec
  | .aesProcessBlock xor => flagsByte false false false false false false false xor
  | .aesProcessBlocks xor xorin noinc ctr => flagsByte false false false false ctr noinc xorin xor
  | .aesReadRk => 0
  | .aesClearKey => 0
  | .bencInit alpha padding nopad => flagsByte false false nopad padding alpha false false false
  | .bencPut blocking => flagsByte false false false false false false false blocking
  | .bdecBuildLookup ci => flagsByte false false false false false false false ci
  | .bdecInit lut => flagsByte false false false false lut false false false
  | .bdecPut blocking => flagsByte false false false false false false false blocking
  | .grpInit sep term => flagsByte false false false false false false term sep
  | .grpPut blocking => flagsByte false false false false false false false blocking

/-- A command statement (R92): `MNEMONIC[.inst] [flag ...] [aN=value ...] [bpc=n] [p8=byte] [end=level]`.
R92 limits only the flag tokens by mnemonic. Every other part may stand with every mnemonic, also where the
word is then illegal (R88). DESIGN CHOICE (log 16): `param8` is what `p8=` or `end=` gives, of which a
statement has at most one. -/
structure Statement where
  mnemonic : Mnemonic
  inst : BitVec 4 := 0
  a0 : Option Word := none
  a1 : Option Word := none
  a2 : Option Word := none
  a3 : Option Word := none
  a4 : Option Word := none
  a5 : Option Word := none
  bpc : Option (BitVec 3) := none
  param8 : Option Byte := none
  deriving DecidableEq, Repr

/-- `FLAGS` of a statement: the tokens' bits, `FLAGS[2:0]` being `n` where the statement has `bpc=n` (R92). DESIGN
CHOICE (log 16): `bpc=` wins over a token that names one of these three bits. -/
def Statement.flags (t : Statement) : BitVec 8 :=
  match t.bpc with
  | none => t.mnemonic.flags
  | some n => t.mnemonic.flags.extractLsb' 3 5 ++ n

/-- The command word `w` of a statement (R92). -/
def Statement.word (t : Statement) : Word :=
  encodeFields (t.param8.getD 0) t.flags t.inst t.mnemonic.opcode.code

/-- A statement, without argument registers, for each command: its word is the command's
(`Statement.ofInstr_word`). -/
def Statement.ofInstr : Instr → Statement
  | .aesSetKey i d => { mnemonic := .aesSetKey (d == .decrypt), inst := i }
  | .aesProcessBlock i x => { mnemonic := .aesProcessBlock x, inst := i }
  | .aesProcessBlocks i x y n c => { mnemonic := .aesProcessBlocks x y n c, inst := i }
  | .aesReadRk i => { mnemonic := .aesReadRk, inst := i }
  | .aesClearKey i => { mnemonic := .aesClearKey, inst := i }
  | .bencInit i b a p f q => { mnemonic := .bencInit a p f, inst := i, bpc := some b, param8 := some q }
  | .bencPut i k m => { mnemonic := .bencPut k, inst := i, param8 := some m }
  | .bdecBuildLookup c => { mnemonic := .bdecBuildLookup c }
  | .bdecInit i b l => { mnemonic := .bdecInit l, inst := i, bpc := some b }
  | .bdecPut i k m => { mnemonic := .bdecPut k, inst := i, param8 := some m }
  | .grpInit i s t => { mnemonic := .grpInit s t, inst := i }
  | .grpPut i k m => { mnemonic := .grpPut k, inst := i, param8 := some m }

/-- `WR` to the register at `offset`, if the statement names it. -/
def writeIfNamed (offset : Nat) (v : Option Word) : List Input :=
  match v with
  | none => []
  | some w => [.writeReg offset 32 w]

/-- What a command statement assembles to: the named registers in the order `a0` to `a5`, then
`WR CMD`, then `WAIT` (R92). -/
def Statement.assemble (t : Statement) : List Input :=
  writeIfNamed 0x08 t.a0 ++ writeIfNamed 0x0C t.a1 ++ writeIfNamed 0x10 t.a2 ++ writeIfNamed 0x14 t.a3
    ++ writeIfNamed 0x18 t.a4 ++ writeIfNamed 0x1C t.a5 ++ [.writeReg 0x00 32 t.word, .wait]

/-- The pseudo-commands of R93, each with the instance and the argument registers its row of R93 names. A
register that the program does not name keeps its value (R92), as `A0` does in the second `AES_CTR` of
95_test_vectors.md P2. -/
inductive Pseudo where
  | aesEcb (i : BitVec 4 := 0) (a0 a2 a3 : Option Word := none)
  | aesCtr (i : BitVec 4 := 0) (a0 a1 a2 a3 : Option Word := none)
  | aesCbcEncStep (i : BitVec 4 := 0) (a0 a1 : Option Word := none)
  | base64Init (i : BitVec 4 := 0) (a0 : Option Word := none)
  | base32Init (i : BitVec 4 := 0) (a0 : Option Word := none)
  | hexInit (i : BitVec 4 := 0) (a0 : Option Word := none)
  | bencEnd (i : BitVec 4 := 0)
  | bdecEnd (i : BitVec 4 := 0)
  | grpEnd (i : BitVec 4 := 0)
  deriving DecidableEq, Repr

/-- The expansion of a pseudo-command (R93). DEDUCED (log 16): `AES_CBC_ENC_STEP` without `a1` names neither
`a1` nor `a2`, since its expansion gives both the value of `a1`. -/
def Pseudo.expand : Pseudo → Statement
  | .aesEcb i a0 a2 a3 => { mnemonic := .aesProcessBlocks, inst := i, a0 := a0, a2 := a2, a3 := a3 }
  | .aesCtr i a0 a1 a2 a3 =>
    { mnemonic := .aesProcessBlocks (xor := true) (ctr := true), inst := i, a0 := a0, a1 := a1, a2 := a2, a3 := a3 }
  | .aesCbcEncStep i a0 a1 =>
    { mnemonic := .aesProcessBlocks (xor := true) (xorin := true) (noinc := true), inst := i, a0 := a0, a1 := a1,
      a2 := a1, a3 := some 16 }
  | .base64Init i a0 =>
    { mnemonic := .bencInit (alpha := true) (padding := true), inst := i, bpc := some 6, param8 := some 0x3D#8, a0 := a0 }
  | .base32Init i a0 =>
    { mnemonic := .bencInit (alpha := true) (padding := true), inst := i, bpc := some 5, param8 := some 0x3D#8, a0 := a0 }
  | .hexInit i a0 => { mnemonic := .bencInit (alpha := true), inst := i, bpc := some 4, a0 := a0 }
  | .bencEnd i => { mnemonic := .bencPut (blocking := true), inst := i, param8 := some 1#8, a3 := some 0 }
  | .bdecEnd i => { mnemonic := .bdecPut (blocking := true), inst := i, param8 := some 1#8, a3 := some 0 }
  | .grpEnd i => { mnemonic := .grpPut (blocking := true), inst := i, param8 := some 1#8, a3 := some 0 }

/-- `n` consecutive ASCII characters from code `c` on. -/
def asciiRun (c n : Nat) : List Byte := (List.range n).map (fun i => BitVec.ofNat 8 (c + i))

/-- `A-Za-z0-9`, 62 characters. -/
def alphanumerics : List Byte := asciiRun 0x41 26 ++ asciiRun 0x61 26 ++ asciiRun 0x30 10

/-- The standard Base64 alphabet: `+` and `/` last (R216). -/
def base64Alphabet : List Byte := alphanumerics ++ [0x2B#8, 0x2F#8]

/-- The URL Base64 alphabet: `-` and `_` last (R216). -/
def base64UrlAlphabet : List Byte := alphanumerics ++ [0x2D#8, 0x5F#8]

/-- The Base32 alphabet `A-Z2-7` (R216). -/
def base32Alphabet : List Byte := asciiRun 0x41 26 ++ asciiRun 0x32 6

/-- The hex alphabet `0-9A-F` (R216). -/
def hexAlphabet : List Byte := asciiRun 0x30 10 ++ asciiRun 0x41 6

end Sys2Proof.Machine
end

