-- ==== Sys2Proof/Safety.lean ====
section
/-! DEFINITION. What a legal state is: the legal values and the invariants that spec/10_state.md gives
each piece of state (R22, R30, R34 to R36, R39 to R41, R43 to R47), as predicates that the statements
use. Each part stands alone, so that each can be shown to be kept by every step. -/

namespace Sys2Proof.Machine

/-- `STATUS`, `RESULT` and the latches (R22, R24, R47, R270, R304): while a command runs nothing else is
reported; after it the latches are given up; an error code goes with an argument index and leaves
`RESULT` 0; a stall is an end without error. -/
structure State.ControlInv (s : State) : Prop where
  running : s.status.busy = true →
    s.status.done = false ∧ s.status.stalled = false ∧ s.status.err = .ok ∧ s.status.errArg = .nothing ∧
      s.result = 0 ∧ s.latch.k = 0 ∧ s.latch.pos ≤ s.latch.args.a3.toNat
  atRest : s.status.busy = false → s.latch = Latch.idle
  stalledEnd : s.status.stalled = true → s.status.done = true ∧ s.status.err = .ok
  named : s.status.err = .ok ↔ s.status.errArg = .nothing
  failed : s.status.err ≠ .ok → s.result = 0 ∧ s.status.done = true

/-- Memory: the canonical form, every listed address below `2^AW` (R60). -/
def State.MemoryInv (s : State) : Prop := s.mem.Wf ∧ ∀ c ∈ s.mem, c.1 < memSize

/-- An AES context (R30): without a key it is empty; with one it holds the schedule of some key of legal
length in its direction, and zeros past it. -/
structure AesCtx.Inv (c : AesCtx) : Prop where
  unkeyed : c.valid = false → c = AesCtx.empty
  keyed : c.valid = true → ∃ key : List Byte, legalKeyLength key.length = true ∧ c = keyedContext c.dir key

/-- An encoder instance (R34, R35, R36). `wholeBytes` says that the cursor has consumed whole input bytes. -/
structure Encoder.Inv (e : Encoder) : Prop where
  unconfigured : e.valid = false → e = Encoder.empty
  bits : e.valid = true → 1 ≤ e.b ∧ e.b ≤ 7 ∧ e.obs = encoderBlockSize e.b ∧ e.bitPos < e.b
  alphabetTail : ∀ j, 2 ^ e.b ≤ j → entry e.alphabet j 0 = 0
  noPad : e.padEn = false → e.padByte = 0
  posLe : e.bytePos ≤ e.obs
  idleCursor : e.fsm = .idle → e.valid = true → e.bytePos < e.obs
  wholeBytes : e.fsm = .idle → (e.bytePos * e.b + e.bitPos) % 8 = 0
  symbols : e.fsm = .idle → ∀ j, j < e.bytePos → (entry e.outBuf j 0).toNat < 2 ^ e.b
  partialSymbol : e.fsm = .idle → (entry e.outBuf e.bytePos 0).toNat < 2 ^ e.b ∧
    (entry e.outBuf e.bytePos 0).toNat % 2 ^ (e.b - e.bitPos) = 0
  unused : e.fsm = .idle → ∀ j, e.bytePos < j → entry e.outBuf j 0 = 0
  idlePending : e.fsm = .idle → e.pendLen = 0 ∧ e.pendOff = 0 ∧ e.pendMel = 0
  pending : e.pendLen ≤ e.obs ∧ e.pendOff ≤ e.pendLen ∧ e.pendMel ≤ 254
  pendingBlock : e.fsm = .pendBlock → e.pendLen = e.obs ∧ e.pendMel = 0

/-- A decoder instance (R39, R40, R41). `wholeSymbols` says that the cursor has consumed whole symbols. -/
structure Decoder.Inv (d : Decoder) : Prop where
  unconfigured : d.valid = false → d = Decoder.empty
  bits : d.valid = true → 1 ≤ d.b ∧ d.b ≤ 7 ∧ d.obs = decoderBlockSize d.b
  posLe : d.bytePos ≤ d.obs ∧ d.bitPos ≤ 7
  idleCursor : d.fsm = .idle → d.valid = true → d.bytePos < d.obs
  wholeSymbols : d.fsm = .idle → (8 * d.bytePos + d.bitPos) % d.b = 0
  partialByte : d.fsm = .idle → (entry d.outBuf d.bytePos 0).toNat % 2 ^ (8 - d.bitPos) = 0
  unused : d.fsm = .idle → ∀ j, d.bytePos < j → entry d.outBuf j 0 = 0
  idlePending : d.fsm = .idle → d.pendLen = 0 ∧ d.pendOff = 0 ∧ d.pendMel = 0
  pending : d.pendLen ≤ d.obs ∧ d.pendOff ≤ d.pendLen ∧ d.pendMel ≤ 254
  pendingBlock : d.fsm = .pendBlock → d.pendLen = d.obs ∧ d.pendMel = 0

/-- A Grouper instance (R43, R44, R45). -/
structure Grouper.Inv (g : Grouper) : Prop where
  unconfigured : g.valid = false → g = Grouper.empty
  strings : g.sepLen ≤ Config.params.maxStr ∧ g.termLen ≤ Config.params.maxStr
  sepTail : ∀ j, g.sepLen ≤ j → entry g.sep j 0 = 0
  termTail : ∀ j, g.termLen ≤ j → entry g.term j 0 = 0
  counterLe : g.counter ≤ g.groupSize.toNat
  idlePending : g.fsm = .idle → g.pendOff = 0 ∧ g.pendMel = 0
  pendingSep : g.fsm = .pendSep → g.pendOff ≤ g.sepLen ∧ g.pendMel = 0 ∧ g.counter = g.groupSize.toNat ∧
    0 < g.groupSize.toNat
  pendingTerm : g.fsm = .pendTerm → g.pendOff ≤ g.termLen ∧ g.pendMel ≤ 254

/-- An event a history may hold (R46, R191, R192): the sink took no more than it was offered; a message
end has a level of at least 1; every level comes from a `mel` of 0 to 255 (R195). -/
def Event.Ok : Event → Prop
  | .offer bytes mel _ taken => taken ≤ bytes.length ∧ mel ≤ 254
  | .ended level => 1 ≤ level ∧ level ≤ 254

/-- A port whose history holds only such events. -/
def Port.Inv (p : Port) : Prop := ∀ e ∈ p.history, e.Ok

/-- Every AES context is legal. -/
def State.AesInv (s : State) : Prop := ∀ c ∈ s.aes.toList, c.Inv
/-- Every encoder instance is legal. -/
def State.EncoderInv (s : State) : Prop := ∀ e ∈ s.enc.toList, e.Inv
/-- Every decoder instance is legal. -/
def State.DecoderInv (s : State) : Prop := ∀ d ∈ s.dec.toList, d.Inv
/-- Every Grouper instance is legal. -/
def State.GrouperInv (s : State) : Prop := ∀ g ∈ s.grp.toList, g.Inv
/-- Every port history is legal; the levels rest on the instances' pending levels. -/
def State.PortInv (s : State) : Prop :=
  (∀ p ∈ s.outE.toList, p.Inv) ∧ (∀ p ∈ s.outD.toList, p.Inv) ∧ (∀ p ∈ s.outG.toList, p.Inv) ∧
    (∀ e ∈ s.enc.toList, e.pendMel ≤ 254) ∧ (∀ d ∈ s.dec.toList, d.pendMel ≤ 254) ∧
    (∀ g ∈ s.grp.toList, g.pendMel ≤ 254)

/-- A legal state. -/
structure State.Inv (s : State) : Prop where
  control : s.ControlInv
  memory : s.MemoryInv
  aes : s.AesInv
  encoder : s.EncoderInv
  decoder : s.DecoderInv
  grouper : s.GrouperInv
  port : s.PortInv

/-- A safe step: it neither faults nor is refused. Only an act of the host can be unsafe (R65, R69). -/
def SafeStep (s : State) : Prop := ∃ t, step s = .next t

end Sys2Proof.Machine
end

