-- ==== Sys2Proof/Certificates/Slice0/Obligations.lean ====
section
/-! DEFINITION. The statements about the model, from the numbered rules of spec/. The first part holds
the words they are written in; each statement's docstring names the rule it formalises. -/

namespace Sys2Proof.Statements

open Sys2Proof.Machine

/-! ### Words the statements use -/

/-- A command has just started or is running and has not ended (R21, R304): `BUSY` is 1 and nothing else
is reported. -/
abbrev Started (s : State) : Prop :=
  s.status = ⟨true, false, false, s.status.overrun, .ok, .nothing⟩ ∧ s.result = 0

/-- `STATUS` after an end without error: `0x00000002`, but for the sticky `OVERRUN`. -/
def endedOk (s : State) : Status := ⟨false, true, false, s.status.overrun, .ok, .nothing⟩

/-- `STATUS` after a stall (R194): an end without error, `STALLED` set. -/
def endedStalled (s : State) : Status := ⟨false, true, true, s.status.overrun, .ok, .nothing⟩

/-- A buffer of `n` bytes at `a` fits in memory (R62). -/
abbrev Fits (a n : Nat) : Prop := n = 0 ∨ a + n ≤ 2 ^ 32

/-- Two ranges share no address. -/
abbrev Disjoint (a n b k : Nat) : Prop := a + n ≤ b ∨ b + k ≤ a

/-- The sink of a port takes whatever it is offered: at least `k` answers have arrived, each at least
`size`. -/
abbrev TakesAll (p : Port) (k size : Nat) : Prop := k ≤ p.answers.length ∧ ∀ t ∈ p.answers, size ≤ t

/-- What the sink of a port answers next (R191): the first listed count, or the next free one (log 5). -/
def nextAnswer (u : FilterUnit) (n : BitVec 4) (p : Port) : Nat := p.answers.headD (Config.sinkTakes u n.toNat p.drawn)

/-- Argument register `k` (R23). -/
def argument (a : Args) (k : Nat) : Word := [a.a0, a.a1, a.a2, a.a3, a.a4, a.a5].getD k 0

/-- A put with `BLOCKING = 1`: the only command that may go on for ever (R309). -/
def blockingPut : Instr → Bool
  | .bencPut _ k _ => k
  | .bdecPut _ k _ => k
  | .grpPut _ k _ => k
  | .aesSetKey _ _ => false
  | .aesProcessBlock _ _ => false
  | .aesProcessBlocks _ _ _ _ _ => false
  | .aesReadRk _ => false
  | .aesClearKey _ => false
  | .bencInit _ _ _ _ _ _ => false
  | .bdecBuildLookup _ => false
  | .bdecInit _ _ _ => false
  | .grpInit _ _ _ => false

/-- Every piece of the block's state but the histories at its reset value (R48). The argument latches, the
cursor and the block counter, which R48 does not list, are 0 by the model's choice (log 7). -/
structure ResetValues (t : State) : Prop where
  registers : t.args = ⟨0, 0, 0, 0, 0, 0⟩ ∧ t.result = 0 ∧ t.status.toWord = 0
  latches : t.latch = ⟨0, ⟨0, 0, 0, 0, 0, 0⟩, 0, 0, 0⟩
  aes : ∀ c ∈ t.aes.toList, c.valid = false ∧ c.dir = .encrypt ∧ c.nr = 0 ∧ ∀ k, entry c.rk k 0 = 0
  encoders : ∀ e ∈ t.enc.toList, e.valid = false ∧ e.b = 0 ∧ e.padEn = false ∧ e.padByte = 0 ∧ e.obs = 0 ∧
    e.bytePos = 0 ∧ e.bitPos = 0 ∧ e.fsm = .idle ∧ e.pendLen = 0 ∧ e.pendOff = 0 ∧ e.pendMel = 0 ∧
    (∀ k, entry e.alphabet k 0 = 0) ∧ ∀ k, entry e.outBuf k 0 = 0
  decoders : ∀ d ∈ t.dec.toList, d.valid = false ∧ d.b = 0 ∧ d.obs = 0 ∧ d.bytePos = 0 ∧ d.bitPos = 0 ∧
    d.fsm = .idle ∧ d.pendLen = 0 ∧ d.pendOff = 0 ∧ d.pendMel = 0 ∧
    (∀ k, k < 256 → entry d.lookup k 0 = 0xFF#8) ∧ ∀ k, entry d.outBuf k 0 = 0
  groupers : ∀ g ∈ t.grp.toList, g.valid = false ∧ g.groupSize = 0 ∧ g.sepLen = 0 ∧ g.termLen = 0 ∧
    g.counter = 0 ∧ g.fsm = .idle ∧ g.pendOff = 0 ∧ g.pendMel = 0 ∧
    (∀ k, entry g.sep k 0 = 0) ∧ ∀ k, entry g.term k 0 = 0

/-- The number of contexts or instances of an opcode's unit; a word of `BDEC_BUILD_LOOKUP` needs
`INST = 0` (R82). -/
def instanceCount : Opcode → Nat
  | .aesSetKey => Config.params.nAes
  | .aesProcessBlock => Config.params.nAes
  | .aesProcessBlocks => Config.params.nAes
  | .aesReadRk => Config.params.nAes
  | .aesClearKey => Config.params.nAes
  | .bencInit => Config.params.nBenc
  | .bencPut => Config.params.nBenc
  | .bdecBuildLookup => 1
  | .bdecInit => Config.params.nBdec
  | .bdecPut => Config.params.nBdec
  | .grpInit => Config.params.nGrp
  | .grpPut => Config.params.nGrp

/-- R88 condition 3: a `FLAGS` bit that the command does not define. -/
abbrev UndefinedFlags (op : Opcode) (w : Word) : Prop := flagsField w &&& ~~~ op.definedFlags ≠ 0

/-- R88 condition 4: a `PARAM8` that must be 0 and is not. -/
abbrev StrayParam8 (op : Opcode) (w : Word) : Prop := op.usesParam8 = false ∧ param8Field w ≠ 0

/-- R88 condition 5: `INST` out of range. -/
abbrev InstOutOfRange (op : Opcode) (w : Word) : Prop := instanceCount op ≤ (instField w).toNat

/-- An illegal command word, with the argument index of the first of R88's conditions that holds, in the
order of R273 steps 1 to 4. -/
abbrev IllegalAt (w : Word) (arg : ArgIndex) : Prop :=
  (arg = .opcode ∧ ((∀ op : Opcode, op.code ≠ opcField w) ∨ rsvdField w ≠ 0)) ∨
    ∃ op : Opcode, op.code = opcField w ∧ rsvdField w = 0 ∧
      ((arg = .flags ∧ UndefinedFlags op w) ∨
        (arg = .param8 ∧ ¬ UndefinedFlags op w ∧ StrayParam8 op w) ∨
        (arg = .inst ∧ ¬ UndefinedFlags op w ∧ ¬ StrayParam8 op w ∧ InstOutOfRange op w))

/-- R274: the errors a command can raise once its word is decoded, with their argument indices. -/
def commandErrors : Instr → List (ErrorCode × ArgIndex)
  | .aesSetKey _ _ => [(.invalidKeyLength, .a3), (.badAddress, .a0)]
  | .aesProcessBlock _ x => [(.notReady, .inst), (.badAddress, .a0), (.badAddress, .a2)] ++ (if x then [(.badAddress, .a1)] else [])
  | .aesProcessBlocks _ x _ _ _ =>
    [(.notReady, .inst), (.badAddress, .a0), (.badAddress, .a2)] ++ (if x then [(.badAddress, .a1)] else [])
  | .aesReadRk _ => [(.notReady, .inst), (.badAddress, .a2)]
  | .aesClearKey _ => []
  | .bencInit _ _ _ _ _ _ => [(.invalidArgument, .flags), (.badAddress, .a0)]
  | .bencPut _ _ _ => [(.notReady, .inst), (.badAddress, .a0)]
  | .bdecBuildLookup _ => [(.invalidArgument, .a3), (.badAddress, .a0), (.badAddress, .a2), (.duplicateSymbol, .a0)]
  | .bdecInit _ _ _ => [(.invalidArgument, .flags), (.badAddress, .a0)]
  | .bdecPut _ _ _ => [(.notReady, .inst), (.badAddress, .a0)]
  | .grpInit _ _ _ =>
    [(.invalidArgument, .flags), (.invalidArgument, .a3), (.invalidArgument, .a4), (.badAddress, .a0), (.badAddress, .a1)]
  | .grpPut _ _ _ => [(.notReady, .inst), (.badAddress, .a0)]

/-- The running command on other buffers: memory `m`, addresses `a`, `b` and `c` in `A0`, `A1` and `A2`,
length `n` in `A3`. -/
def onBuffers (s : State) (m : Memory) (a b c n : Nat) : State :=
  { s with
    mem := m
    latch := { s.latch with
      args := { s.latch.args with
        a0 := BitVec.ofNat 32 a
        a1 := BitVec.ofNat 32 b
        a2 := BitVec.ofNat 32 c
        a3 := BitVec.ofNat 32 n } } }

/-- The memory after a step; `m` if it stops. -/
def memoryAfter (o : Host.Outcome State Fault Refusal) (m : Memory) : Memory :=
  match o with
  | .next t => t.mem
  | .fault _ => m
  | .refused _ => m

/-! ### The cipher of FIPS-197 (R129): a state is 16 bytes, byte `r + 4c` in row `r` of column `c` -/

/-- ShiftRows, and its inverse for `k = 3`: row `r` goes `k * r` places to the left. -/
def shiftRowsLeft (k : Nat) (x : List Byte) : List Byte :=
  (List.range 16).map fun j => x.getD ((j + 4 * (k * (j % 4))) % 16) 0

/-- MixColumns, and its inverse: each column multiplied by the matrix whose rows are the rotations of `row`. -/
def mixColumns (row x : List Byte) : List Byte :=
  (List.range 16).map fun j =>
    (List.range 4).foldl (fun v i => v ^^^ gmul (row.getD ((i + 4 - j % 4) % 4) 0) (x.getD (4 * (j / 4) + i) 0)) 0

/-- AddRoundKey: column `c` xored with word `4r + c` of the schedule, most significant byte first. -/
def addKeyBytes (rk : List Word) (r : Nat) (x : List Byte) : List Byte :=
  (List.range 16).map fun j => x.getD j 0 ^^^ byteOf (rk.getD (4 * r + j / 4) 0) (3 - j % 4)

/-- FIPS-197's Cipher with the S-box, shift and matrix of encryption, its Equivalent Inverse Cipher with
those of decryption: `nr` rounds, the last without MixColumns. -/
def fipsCipher (box : Byte → Byte) (k : Nat) (row : List Byte) (rk : List Word) (nr : Nat) (x : List Byte) : List Byte :=
  addKeyBytes rk nr (shiftRowsLeft k (((List.range (nr - 1)).foldl
    (fun v r => addKeyBytes rk (r + 1) (mixColumns row (shiftRowsLeft k (v.map box)))) (addKeyBytes rk 0 x)).map box))

/-! ### Reference functions for the codecs and the Grouper -/

/-- A list cut into pieces of `n`, the last one shorter if need be; the first argument bounds the number
of pieces. -/
def cut {α : Type} (n : Nat) : Nat → List α → List (List α)
  | 0, _ => []
  | k + 1, l => if l.isEmpty then [] else l.take n :: cut n k (l.drop n)

/-- The bits of a byte, most significant first. -/
def bitsOfByte (v : Byte) : List Bool := [7, 6, 5, 4, 3, 2, 1, 0].map v.getLsbD

/-- The bits of a byte string. -/
def bitsOf (l : List Byte) : List Bool := l.flatMap bitsOfByte

/-- The value of a group of `b` bits, most significant first, missing low bits 0. -/
def groupValue (b : Nat) (g : List Bool) : Nat :=
  (g ++ List.replicate (b - g.length) false).foldl (fun v x => 2 * v + x.toNat) 0

/-- The symbols of a string of bits: its groups of `b`, each looked up in the alphabet. -/
def symbolsOfBits (b : Nat) (alphabet : List Byte) (l : List Bool) : List Byte :=
  (cut b l.length l).map (fun g => alphabet.getD (groupValue b g) 0)

/-- The symbols of a message. -/
def symbolsOf (b : Nat) (alphabet l : List Byte) : List Byte := symbolsOfBits b alphabet (bitsOf l)

/-- The bits that a decoder takes from its input: the `b` low bits of each byte's entry in the lookup table,
most significant first, bytes whose entry is `2^b` or more skipped (R233). -/
def decodedBits (b : Nat) (lookup l : List Byte) : List Bool :=
  l.flatMap fun c =>
    let v := lookup.getD c.toNat 0xFF#8
    if 2 ^ b ≤ v.toNat then [] else (List.range b).map fun k => v.getLsbD (b - 1 - k)

/-- The whole bytes of a string of bits; a last group of fewer than eight is dropped (R234). -/
def wholeBytes (l : List Bool) : List Byte :=
  ((cut 8 l.length l).filter fun g => g.length == 8).map fun g => BitVec.ofNat 8 (groupValue 8 g)

/-- Padding up to a multiple of the block size (R217). -/
def padded (padOn : Bool) (padByte : Byte) (obs : Nat) (l : List Byte) : List Byte :=
  if padOn then l ++ List.replicate ((obs - l.length % obs) % obs) padByte else l

/-- A list cut into groups of `g` bytes, `sep` between every two (R255); the list itself for `g = 0`. -/
def grouped (g : Nat) (sep l : List Byte) : List Byte :=
  if g = 0 then l else sep.intercalate (cut g l.length l)

/-- The end of a message in an output stream: `End(mel - 1)` if `mel ≥ 2` (R195). -/
def endItem (mel : Nat) : List StreamItem := if 2 ≤ mel then [.ended (mel - 1)] else []

/-- The bits an encoder holds (R35): `b` bits of each whole symbol, then the `bit_pos` high bits of the
partial one. -/
def heldBits (e : Encoder) : List Bool :=
  ((List.range e.bytePos).flatMap fun j => (List.range e.b).map fun k => (entry e.outBuf j 0).getLsbD (e.b - 1 - k))
    ++ (List.range e.bitPos).map fun k => (entry e.outBuf e.bytePos 0).getLsbD (e.b - 1 - k)

/-- The bits a decoder holds (R40): the whole bytes, then the `bit_pos` high bits of the partial one. -/
def heldByteBits (d : Decoder) : List Bool :=
  ((List.range d.bytePos).flatMap fun j => bitsOfByte (entry d.outBuf j 0))
    ++ (List.range d.bitPos).map fun k => (entry d.outBuf d.bytePos 0).getLsbD (7 - k)

/-- One turn of a put of `l` into a unit from a memory that holds it, with the answers of a sink, `answers`
first and then the free ones of `sink`: how it ended, the unit after it, how many bytes it consumed, and
its part of the output stream. -/
def putMessage {U : Type} (u : PutUnit U) (body : PutJob → PutRun U → Flow × PutRun U) (unit : U) (l : List Byte)
    (blocking : Bool) (mel : Nat) (sink : Nat → Nat) (answers : List Nat) : Flow × U × Nat × List StreamItem :=
  let r := u.run body ⟨Memory.writeN [] 0 l, 0, l.length, blocking, mel, sink⟩ ⟨unit, ⟨[], answers, 0⟩, 0⟩
  (r.1, r.2.unit, r.2.pos, streamOf r.2.port.history)

/-- A unit whose pending emission ends its message (R197). -/
abbrev EndPending {U : Type} (u : PutUnit U) (unit : U) : Prop := u.idle unit = false ∧ u.endsMessage unit = true

/-- A message `l`, to be ended with level `mel`, brought into `unit` by puts of any of its pieces, blocking
or not, against any sinks, each taking up where the one before it stopped (R197, R199): the unit after the
message's end and the output stream. The last put is one of the whole rest with level `mel` that goes
through, or one that completes the pending end of the message. A blocking put that waits (log 5) takes up
its own rest. -/
inductive Session {U : Type} (u : PutUnit U) (body : PutJob → PutRun U → Flow × PutRun U) (mel : Nat) :
    U → List Byte → U → List StreamItem → Prop
  | last (unit unit' : U) (l : List Byte) (blocking : Bool) (m : Nat) (sink : Nat → Nat) (answers : List Nat)
      (consumed : Nat) (stream : List StreamItem) :
      m = mel ∨ EndPending u unit →
      putMessage u body unit l blocking m sink answers = (.go, unit', consumed, stream) →
      Session u body mel unit l unit' stream
  | more (unit unit' unit'' : U) (piece rest : List Byte) (blocking : Bool) (m : Nat) (sink : Nat → Nat)
      (answers : List Nat) (f : Flow) (consumed : Nat) (stream stream' : List StreamItem) :
      m = 0 ∨ (m = mel ∧ rest = []) →
      putMessage u body unit piece blocking m sink answers = (f, unit', consumed, stream) →
      f ≠ .go ∨ (m = 0 ∧ ¬ EndPending u unit) →
      Session u body mel unit' ((piece ++ rest).drop consumed) unit'' stream' →
      Session u body mel unit (piece ++ rest) unit'' (stream ++ stream')

/-- The bytes of an output stream. -/
def bytesOf (l : List StreamItem) : List Byte :=
  l.filterMap fun x => match x with
    | .byte v => some v
    | .ended _ => none

/-- A whole message put into a unit whose sink takes everything: the bytes it outputs. -/
def outputBytes {U : Type} (u : PutUnit U) (body : PutJob → PutRun U → Flow × PutRun U) (unit : U)
    (l : List Byte) : List Byte :=
  bytesOf (putMessage u body unit l true 1 (fun _ => 0) (List.replicate (2 * l.length + 2) (l.length + 255))).2.2.2

end Sys2Proof.Statements

open Sys2Proof Sys2Proof.Machine Sys2Proof.Statements

/-! ### Encoding (spec/30_encoding.md) -/

/-- R80, R90: decoding the word of a well-formed command gives the command back. -/
def Obligations.DecodeUndoesEncode : Prop :=
  ∀ i : Instr, i.WellFormed → decode (encode i) = .ok i

/-- R80, R82, R83, R90: a word that decodes is the word of the command it decodes to, that command names
an existing context or instance, and the word's `RSVD` is 0. No two words decode to one command. -/
def Obligations.EncodeUndoesDecode : Prop :=
  ∀ (w : Word) (i : Instr), decode w = .ok i → i.WellFormed ∧ encode i = w ∧ rsvdField w = 0

/-- R88, R90, R273 steps 1 to 4: a word is rejected, with the argument index of the first condition that
holds, exactly when one of the five conditions holds; and when it is the engine's turn, a step on such a
word ends it with `ILLEGAL_COMMAND` and that index and has no other effect. That a waiting host has just
read `STATUS` is the model's choice (log 4). -/
def Obligations.IllegalWordsAreRejected : Prop :=
  (∀ (w : Word) (arg : ArgIndex), (∃ e, decode w = .error e ∧ decodeErrorArg e = arg) ↔ IllegalAt w arg) ∧
    ∀ (s : State) (arg : ArgIndex), s.status.busy = true → IllegalAt s.latch.cmd arg →
      let rejected (t : State) : State := { t with
        status := { t.status with busy := false, done := true, err := .illegalCommand, errArg := arg }
        latch := Latch.idle }
      (s.inputs = [] → step s = .next (rejected s)) ∧
      (∀ rest, s.inputs = .engine :: rest → step s = .next (rejected { s with inputs := rest })) ∧
      (∀ rest, s.inputs = .wait :: rest → step s = .next (rejected { s with rdData := s.status.toWord }))

/-- R86, R87, R92: words of 95_test_vectors.md decode to the commands they stand for there. -/
def Obligations.SpecWordsDecode : Prop :=
  decode 0x00010001#32 = .ok (.aesSetKey 0 .decrypt) ∧
  decode 0x00090003#32 = .ok (.aesProcessBlocks 0 true false false true) ∧
  decode 0x3D1E0010#32 = .ok (.bencInit 0 6 true true false 0x3D#8) ∧
  decode 0x0101001A#32 = .ok (.bdecPut 0 true 1#8) ∧
  decode 0x00030020#32 = .ok (.grpInit 0 true true)

/-! ### The command life cycle (spec/10_state.md R20 to R28, spec/70_reset_and_hazards.md R304) -/

/-- R8, R21, R28, R304 step 2: when it is the engine's turn, a step is the run of the decoded command:
with no outside act listed, with the engine's turn listed, or while the host waits, which has then just
read `STATUS` (log 4). And a command word placed where the machine takes its next command is started from
the argument registers and run by the very next step. -/
def Obligations.StepRunsDecodedCommand : Prop :=
  (∀ (s : State) (i : Instr), s.status.busy = true → decode s.latch.cmd = .ok i →
    (s.inputs = [] → step s = exec i s) ∧
    (∀ rest, s.inputs = .engine :: rest → step s = exec i { s with inputs := rest }) ∧
    (∀ rest, s.inputs = .wait :: rest → step s = exec i { s with rdData := s.status.toWord })) ∧
  ∀ (s : State) (n w : Nat) (i : Instr), decode (BitVec.ofNat 32 (w % 2 ^ n)) = .ok i →
    step (s.withFetchWord n w) = exec i { s with
      latch := ⟨BitVec.ofNat 32 (w % 2 ^ n), s.args, 0, 0, 0⟩
      result := 0
      status := ⟨true, false, false, s.status.overrun, .ok, .nothing⟩ }

/-- R21: a write to `CMD` at rest latches the word and `A0` to `A5`, clears what the last command reported
and sets `BUSY`; a write while a command runs only sets `OVERRUN`; a read returns 0; and a command reads
its arguments from the latches only, so that what `A0` to `A5` hold while it runs changes nothing of what
it does. -/
def Obligations.CmdRegisterStartsCommands : Prop :=
  (∀ (s : State) (w : Word) (rest : List Input),
    (s.status.busy = false → step { s with inputs := .writeReg 0x00 32 w :: rest } = .next { s with
      inputs := rest
      latch := ⟨w, s.args, 0, 0, 0⟩
      result := 0
      status := ⟨true, false, false, s.status.overrun, .ok, .nothing⟩ }) ∧
    (s.status.busy = true → step { s with inputs := .writeReg 0x00 32 w :: rest } = .next { s with
      inputs := rest
      status := { s.status with overrun := true } }) ∧
    step { s with inputs := .readReg 0x00 32 :: rest } = .next { s with inputs := rest, rdData := 0 }) ∧
  ∀ (i : Instr) (s t : State) (a : Args), exec i s = .next t → exec i { s with args := a } = .next { t with args := a }

/-- R23: a write to an argument register sets it and changes no other register, no latch and nothing else;
a read returns what it holds. -/
def Obligations.ArgumentRegistersReadBack : Prop :=
  ∀ (s : State) (w : Word) (k : Nat) (rest : List Input), k < 6 →
    (∃ a, step { s with inputs := .writeReg (0x08 + 4 * k) 32 w :: rest } = .next { s with inputs := rest, args := a } ∧
      argument a k = w ∧ ∀ j, j < 6 → j ≠ k → argument a j = argument s.args j) ∧
    step { s with inputs := .readReg (0x08 + 4 * k) 32 :: rest } =
      .next { s with inputs := rest, rdData := argument s.args k }

/-- R22, R24, R270, R271: the layout of `STATUS`, its reserved bits, the numbers of the error codes and of
the argument indices, that a read returns that word, what a write to it does, and that a read of `RESULT`
returns `RESULT`. -/
def Obligations.StatusWordLayout : Prop :=
  (∀ s : Status,
    s.toWord.getLsbD 0 = s.busy ∧ s.toWord.getLsbD 1 = s.done ∧ s.toWord.getLsbD 2 = s.stalled ∧
    s.toWord.getLsbD 3 = s.overrun ∧ s.toWord.extractLsb' 4 4 = 0 ∧ s.toWord.extractLsb' 8 8 = s.err.code ∧
    s.toWord.extractLsb' 16 4 = s.errArg.code ∧ s.toWord.extractLsb' 20 12 = 0) ∧
  [ErrorCode.ok, .illegalCommand, .invalidKeyLength, .invalidArgument, .badAddress, .notReady, .duplicateSymbol].map
    ErrorCode.code = [0, 1, 2, 3, 4, 5, 6] ∧
  [ArgIndex.nothing, .a0, .a1, .a2, .a3, .a4, .a5, .inst, .flags, .param8, .opcode].map ArgIndex.code =
    [0, 1, 2, 3, 4, 5, 6, 7, 8, 9, 10] ∧
  ∀ (s : State) (w : Word) (rest : List Input),
    step { s with inputs := .writeReg 0x04 32 w :: rest } = .next { s with
      inputs := rest
      status := { s.status with overrun := s.status.overrun && !w.getLsbD 3 } } ∧
    step { s with inputs := .readReg 0x04 32 :: rest } = .next { s with inputs := rest, rdData := s.status.toWord } ∧
    step { s with inputs := .readReg 0x20 32 :: rest } = .next { s with inputs := rest, rdData := s.result }

/-- R26: reserved offsets read 0 and ignore writes. -/
def Obligations.ReservedOffsetsReadZeroAndIgnoreWrites : Prop :=
  ∀ (s : State) (w : Word) (offset : Nat) (rest : List Input),
    0x28 ≤ offset → offset ≤ 0x3C → offset % 4 = 0 →
      step { s with inputs := .readReg offset 32 :: rest } = .next { s with inputs := rest, rdData := 0 } ∧
      step { s with inputs := .writeReg offset 32 w :: rest } = .next { s with inputs := rest }

/-- R65, S10: a register access that is not 32 bits wide, not at a multiple of 4, or past the block is
refused, whatever the state is. -/
def Obligations.OtherRegisterAccessesAreRefused : Prop :=
  ∀ (s : State) (w : Word) (offset width : Nat) (rest : List Input),
    width ≠ 32 ∨ offset % 4 ≠ 0 ∨ 0x3C < offset →
      step { s with inputs := .writeReg offset width w :: rest } = .refused (.registerAccess offset width) ∧
      step { s with inputs := .readReg offset width :: rest } = .refused (.registerAccess offset width)

/-- R25: every field of `ID`, its value on this hardware, and that a read returns it in every state. -/
def Obligations.IdRegisterHoldsParameters : Prop :=
  (∀ (s : State) (rest : List Input), step { s with inputs := .readReg 0x24 32 :: rest } =
    .next { s with inputs := rest, rdData := idWord Config.params }) ∧
  (∀ c : Config, c.nAes ≤ 16 → c.nBenc ≤ 16 → c.nBdec ≤ 16 → c.nGrp ≤ 16 → c.aw ≤ 32 → c.maxStr ≤ 255 →
    ((idWord c).extractLsb' 0 4).toNat = c.nAes - 1 ∧ ((idWord c).extractLsb' 4 4).toNat = c.nBenc - 1 ∧
    ((idWord c).extractLsb' 8 4).toNat = c.nBdec - 1 ∧ ((idWord c).extractLsb' 12 4).toNat = c.nGrp - 1 ∧
    (idWord c).getLsbD 16 = (c.ctrIncBytes == 16) ∧ ((idWord c).extractLsb' 17 5).toNat = c.aw - 1 ∧
    ((idWord c).extractLsb' 22 8).toNat = c.maxStr ∧ (idWord c).extractLsb' 30 2 = 0) ∧
  idWord Config.params = 0x3FFE0000#32 ||| (if Config.params.ctrIncBytes = 16 then 0x00010000#32 else 0#32)

/-! ### Reset (spec/70_reset_and_hazards.md) -/

/-- R48, R300: a reset while no command runs puts every piece of state at its reset value and does not
touch memory. The model's own fields: `inputs`, `rdData`, `ldData` and the sinks' answers stay (log 4, 5,
6), the draw counter moves on (log 8). -/
def Obligations.ResetGivesResetValues : Prop :=
  ∀ (s : State) (rest : List Input), s.status.busy = false →
    ∃ t, step { s with inputs := .reset :: rest } = .next t ∧ ResetValues t ∧
      (∀ p ∈ t.outE.toList, p.history = []) ∧ (∀ p ∈ t.outD.toList, p.history = []) ∧
      (∀ p ∈ t.outG.toList, p.history = []) ∧
      ∀ a, t.mem.read a = s.mem.read a

/-- R48, R301: a reset during a command stops it at once and puts every piece of the block's state at its
reset value. Memory outside the command's destination ranges is untouched, and every history is empty but
that of the port of an interrupted put: there the events which the put has recorded stay, with some first
part, none or all, of those its next turn would add. What the destination bytes hold is a free value (log
8); which history stays, and how much of the next turn has happened, is the model's reading of R301 beside
R48 (log 9). -/
def Obligations.ResetDuringCommandKeepsTheRest : Prop :=
  ∀ (s : State) (rest : List Input), s.status.busy = true →
    ∃ t, step { s with inputs := .reset :: rest } = .next t ∧ ResetValues t ∧
      (∀ a, (∀ i, decode s.latch.cmd = .ok i → inRanges (destinations i s) a = false) → t.mem.read a = s.mem.read a) ∧
      (∀ u n, (∀ i, decode s.latch.cmd = .ok i → putInstance i ≠ some (u, n)) → (t.port u n).history = []) ∧
      ∀ i u n, decode s.latch.cmd = .ok i → putInstance i = some (u, n) →
        ∃ more, more <+: ((s.ranOn i).port u n).history.drop (s.port u n).history.length ∧
          (t.port u n).history =
            (s.port u n).history.drop ((s.port u n).history.length - s.latch.events) ++ more

/-! ### Errors (spec/60_exceptions.md) -/

/-- R272, R275, R309: no command stops the machine: every command, in every state, gives a next state, and
ends there, but for a blocking put that its sink keeps waiting. Such a put has made an offer in this turn,
is `BUSY` still, and counts the events it has recorded (log 9); a non-blocking put always ends. -/
def Obligations.CommandsEnd : Prop :=
  ∀ (i : Instr) (s : State), ∃ t, exec i s = .next t ∧
    ((t.status.busy = false ∧ t.status.done = true ∧ t.latch = Latch.idle) ∨
      (blockingPut i = true ∧ t.status = s.status ∧ t.result = s.result ∧
        ∀ u n, putInstance i = some (u, n) → (s.port u n).history.length < (t.port u n).history.length ∧
          t.latch.events = s.latch.events + ((t.port u n).history.length - (s.port u n).history.length)))

/-- R272, R274: a command that raises ends at once with one of the errors listed for it, and has changed no
context or instance, written no memory and made no offer: only `STATUS` and the latches differ. -/
def Obligations.ErrorsArePrecise : Prop :=
  ∀ (i : Instr) (s t : State), Started s → exec i s = .next t → t.status.err ≠ .ok →
    t = { s with
      status := ⟨false, true, false, s.status.overrun, t.status.err, t.status.errArg⟩
      latch := Latch.idle } ∧
    (t.status.err, t.status.errArg) ∈ commandErrors i

/-- R270 codes 2, 3, 5 and 6, R273 steps 5, 6 and 8: when each error other than a bad address is raised.
Using a context without a key or an instance without a configuration raises `NOT_READY`, whatever the
buffers are; a key length that is not 16, 24 or 32 raises `INVALID_KEY_LENGTH`; an INIT without its
alphabet, table or separator, `BPC = 0`, more than 128 symbols and a string of more than 255 bytes raise
`INVALID_ARGUMENT`; an alphabet that claims a slot twice raises `DUPLICATE_SYMBOL`. -/
def Obligations.FailedChecksAreReported : Prop :=
  ∀ (n : BitVec 4) (s : State),
    ((s.aesCtx n).valid = false →
      (∀ x, exec (.aesProcessBlock n x) s = .next (s.raise .notReady .inst)) ∧
      (∀ x y d c, exec (.aesProcessBlocks n x y d c) s = .next (s.raise .notReady .inst)) ∧
      exec (.aesReadRk n) s = .next (s.raise .notReady .inst)) ∧
    ((s.encoder n).valid = false → ∀ k m, exec (.bencPut n k m) s = .next (s.raise .notReady .inst)) ∧
    ((s.decoder n).valid = false → ∀ k m, exec (.bdecPut n k m) s = .next (s.raise .notReady .inst)) ∧
    ((s.grouper n).valid = false → ∀ k m, exec (.grpPut n k m) s = .next (s.raise .notReady .inst)) ∧
    (s.len3 ≠ 16 → s.len3 ≠ 24 → s.len3 ≠ 32 →
      ∀ d, exec (.aesSetKey n d) s = .next (s.raise .invalidKeyLength .a3)) ∧
    (∀ b p f pad, exec (.bencInit n b false p f pad) s = .next (s.raise .invalidArgument .flags)) ∧
    (∀ a p f pad, exec (.bencInit n 0 a p f pad) s = .next (s.raise .invalidArgument .flags)) ∧
    (∀ b, exec (.bdecInit n b false) s = .next (s.raise .invalidArgument .flags)) ∧
    (∀ l, exec (.bdecInit n 0 l) s = .next (s.raise .invalidArgument .flags)) ∧
    (128 < s.len3 → ∀ ci, exec (.bdecBuildLookup ci) s = .next (s.raise .invalidArgument .a3)) ∧
    (0 < s.param5.toNat → ∀ q, exec (.grpInit n false q) s = .next (s.raise .invalidArgument .flags)) ∧
    (255 < s.len3 → ∀ q, exec (.grpInit n true q) s = .next (s.raise .invalidArgument .a3)) ∧
    (255 < s.len4 → ∀ p, (p = false → s.param5 = 0) → (p = true → s.len3 ≤ 255) →
      exec (.grpInit n p true) s = .next (s.raise .invalidArgument .a4)) ∧
    (s.len3 ≤ 128 → Fits s.addr0 s.len3 → Fits s.addr2 256 →
      ∀ ci, ¬ ((s.mem.readN s.addr0 s.len3).flatMap (slotsOf ci)).Nodup →
        exec (.bdecBuildLookup ci) s = .next (s.raise .duplicateSymbol .a0))

/-- R62, R273 step 7, R140, R144, R160, R170, R196, R211, R230, R231, R250, R270 code 4: a buffer that runs
past the top of memory, the checks before it passing, raises `BAD_ADDRESS` with the register that names it,
and never wraps: every range check of every command. -/
def Obligations.BuffersPastTheTopAreBadAddresses : Prop :=
  ∀ (n : BitVec 4) (s : State),
    (∀ d, legalKeyLength s.len3 = true → ¬ Fits s.addr0 s.len3 →
      exec (.aesSetKey n d) s = .next (s.raise .badAddress .a0)) ∧
    ((s.aesCtx n).valid = true → ∀ x,
      (¬ Fits s.addr0 16 → exec (.aesProcessBlock n x) s = .next (s.raise .badAddress .a0)) ∧
      (Fits s.addr0 16 → x = true → ¬ Fits s.addr1 16 →
        exec (.aesProcessBlock n x) s = .next (s.raise .badAddress .a1)) ∧
      (Fits s.addr0 16 → (x = true → Fits s.addr1 16) → ¬ Fits s.addr2 16 →
        exec (.aesProcessBlock n x) s = .next (s.raise .badAddress .a2))) ∧
    ((s.aesCtx n).valid = true → 16 ≤ s.len3 → ∀ x y d c,
      let whole := 16 * (s.len3 / 16)
      let inLength := if d || c then 16 else whole
      let outLength := if d then 16 else whole
      (¬ Fits s.addr0 inLength → exec (.aesProcessBlocks n x y d c) s = .next (s.raise .badAddress .a0)) ∧
      (Fits s.addr0 inLength → x = true → ¬ Fits s.addr1 whole →
        exec (.aesProcessBlocks n x y d c) s = .next (s.raise .badAddress .a1)) ∧
      (Fits s.addr0 inLength → (x = true → Fits s.addr1 whole) → ¬ Fits s.addr2 outLength →
        exec (.aesProcessBlocks n x y d c) s = .next (s.raise .badAddress .a2))) ∧
    ((s.aesCtx n).valid = true → ¬ Fits s.addr2 (16 * ((s.aesCtx n).nr.toNat + 1)) →
      exec (.aesReadRk n) s = .next (s.raise .badAddress .a2)) ∧
    (∀ b : BitVec 3, 1 ≤ b.toNat → ¬ Fits s.addr0 (2 ^ b.toNat) →
      ∀ p f pad, exec (.bencInit n b true p f pad) s = .next (s.raise .badAddress .a0)) ∧
    (s.len3 ≤ 128 → ∀ ci,
      (¬ Fits s.addr0 s.len3 → exec (.bdecBuildLookup ci) s = .next (s.raise .badAddress .a0)) ∧
      (Fits s.addr0 s.len3 → ¬ Fits s.addr2 256 → exec (.bdecBuildLookup ci) s = .next (s.raise .badAddress .a2))) ∧
    (∀ b : BitVec 3, 1 ≤ b.toNat → ¬ Fits s.addr0 256 →
      exec (.bdecInit n b true) s = .next (s.raise .badAddress .a0)) ∧
    (∀ p q, (0 < s.param5.toNat → p = true) → (p = true → s.len3 ≤ 255) → (q = true → s.len4 ≤ 255) →
      (p = true → ¬ Fits s.addr0 s.len3 → exec (.grpInit n p q) s = .next (s.raise .badAddress .a0)) ∧
      ((p = true → Fits s.addr0 s.len3) → q = true → ¬ Fits s.addr1 s.len4 →
        exec (.grpInit n p q) s = .next (s.raise .badAddress .a1))) ∧
    (¬ Fits s.addr0 s.len3 → ∀ k m,
      ((s.encoder n).valid = true → exec (.bencPut n k m) s = .next (s.raise .badAddress .a0)) ∧
      ((s.decoder n).valid = true → exec (.bdecPut n k m) s = .next (s.raise .badAddress .a0)) ∧
      ((s.grouper n).valid = true → exec (.grpPut n k m) s = .next (s.raise .badAddress .a0)))

/-! ### AES (spec/40 to spec/43) -/

/-- R111 to R116: the multiples are the products they are named for, `Se` is the affine image of the
inverse in GF(2^8), `Sd` inverts `Se`, and every spot value given for the T-tables. -/
def Obligations.TablesHaveTheirValues : Prop :=
  (∀ x : Byte, f2 x = gmul 2 x ∧ f3 x = gmul 3 x ∧ f4 x = gmul 4 x ∧ f8 x = gmul 8 x ∧ f9 x = gmul 9 x ∧
    fb x = gmul 11 x ∧ fd x = gmul 13 x ∧ fe x = gmul 14 x ∧ sd (se x) = x) ∧
  (∀ x : Byte, ∃ y : Byte, ((x = 0 ∧ y = 0) ∨ gmul x y = 1) ∧
    se x = y ^^^ y.rotateLeft 1 ^^^ y.rotateLeft 2 ^^^ y.rotateLeft 3 ^^^ y.rotateLeft 4 ^^^ 0x63#8) ∧
  te 0 0#8 = 0xc66363a5#32 ∧ te 0 1#8 = 0xf87c7c84#32 ∧ te 0 2#8 = 0xee777799#32 ∧ te 0 255#8 = 0x2c16163a#32 ∧
  te 1 0#8 = 0xa5c66363#32 ∧ te 2 0#8 = 0x63a5c663#32 ∧ te 3 0#8 = 0x6363a5c6#32 ∧ te 3 255#8 = 0x16163a2c#32 ∧
  td 0 0#8 = 0x51f4a750#32 ∧ td 0 1#8 = 0x7e416553#32 ∧ td 0 2#8 = 0x1a17a4c3#32 ∧ td 0 255#8 = 0xd0b85742#32 ∧
  td 1 0#8 = 0x5051f4a7#32 ∧ td 2 0#8 = 0xa75051f4#32 ∧ td 3 0#8 = 0xf4a75051#32 ∧ td 3 255#8 = 0xb85742d0#32

/-- R141: the expansion of a legal key has `Nr = Nk + 6` rounds and `4(Nr+1)` words, starts with the key's words, and each later
word is the one `Nk` places back xored with the transformed previous word. -/
def Obligations.KeyExpansionFollowsRecurrence : Prop :=
  ∀ key : List Byte, legalKeyLength key.length = true →
    let nk := key.length / 4
    let w := fun i => (keyExpand key).getD i 0
    roundCount key = nk + 6 ∧ (keyExpand key).length = 4 * (nk + 7) ∧
    (∀ i, i < nk → w i = be32 (key.getD (4 * i) 0) (key.getD (4 * i + 1) 0) (key.getD (4 * i + 2) 0) (key.getD (4 * i + 3) 0)) ∧
    ∀ i, nk ≤ i → i < 4 * (nk + 7) →
      w i = w (i - nk) ^^^
        (if i % nk = 0 then subWord (rotWord (w (i - 1))) ^^^ be32 (rcon (i / nk)) 0 0 0
         else if nk = 8 ∧ i % nk = 4 then subWord (w (i - 1)) else w (i - 1))

/-- R142: the decryption schedule has the rounds reversed four words at a time, the first and last round
as they are, the interior words multiplied by the InvMixColumns matrix. -/
def Obligations.InverseScheduleReversesRounds : Prop :=
  ∀ (w : List Word) (nr k : Nat), k < 4 * (nr + 1) →
    let v := w.getD (4 * (nr - k / 4) + k % 4) 0
    (invSchedule w nr).length = 4 * (nr + 1) ∧
    (k < 4 ∨ 4 * nr ≤ k → (invSchedule w nr).getD k 0 = v) ∧
    (4 ≤ k → k < 4 * nr → (invSchedule w nr).getD k 0 =
      be32 (fe (byteOf v 3) ^^^ fb (byteOf v 2) ^^^ fd (byteOf v 1) ^^^ f9 (byteOf v 0))
        (f9 (byteOf v 3) ^^^ fe (byteOf v 2) ^^^ fb (byteOf v 1) ^^^ fd (byteOf v 0))
        (fd (byteOf v 3) ^^^ f9 (byteOf v 2) ^^^ fe (byteOf v 1) ^^^ fb (byteOf v 0))
        (fb (byteOf v 3) ^^^ fd (byteOf v 2) ^^^ f9 (byteOf v 1) ^^^ fe (byteOf v 0)))

/-- R120 to R126, R129: with any schedule and number of rounds, what a context's cipher makes of a block is
what the rounds of FIPS-197 make of it: SubBytes, ShiftRows, MixColumns and AddRoundKey for encryption, their
inverses in the order of the Equivalent Inverse Cipher for decryption. -/
def Obligations.BlockCipherIsFips197 : Prop :=
  ∀ (c : AesCtx) (p : List Byte), p.length = 16 →
    cipher c p = match c.dir with
      | .encrypt => fipsCipher se 1 [0x02#8, 0x03#8, 0x01#8, 0x01#8] c.rk.toList c.nr.toNat p
      | .decrypt => fipsCipher sd 3 [0x0e#8, 0x0b#8, 0x0d#8, 0x09#8] c.rk.toList c.nr.toNat p

/-- R140: `AES_SET_KEY` with a legal length and a key that fits completes: the context holds the key's
schedule in its direction and zeros past it, `RESULT = Nr`; every other context, every instance and port,
the argument registers and every byte of memory are unchanged. -/
def Obligations.SetKeyLoadsSchedule : Prop :=
  ∀ (n : BitVec 4) (d : Direction) (s : State), n.toNat < Config.params.nAes → Started s →
    legalKeyLength s.len3 = true → Fits s.addr0 s.len3 →
    ∃ t, exec (.aesSetKey n d) s = .next t ∧
      t = { s with aes := t.aes, result := t.result, status := endedOk s, latch := Latch.idle } ∧
      t.result.toNat = s.len3 / 4 + 6 ∧
      (t.aesCtx n).valid = true ∧ (t.aesCtx n).dir = d ∧ (t.aesCtx n).nr.toNat = s.len3 / 4 + 6 ∧
      (∀ k, k < 60 → entry (t.aesCtx n).rk k 0 = (keySchedule d (s.mem.readN s.addr0 s.len3)).getD k 0) ∧
      (∀ k, 4 * (s.len3 / 4 + 7) ≤ k → entry (t.aesCtx n).rk k 0 = 0) ∧
      ∀ m, m ≠ n → t.aesCtx m = s.aesCtx m

/-- R144: `AES_READ_RK` completes on a valid context whose schedule fits at `A2`: word `k` goes to
`A2 + 4k`, most significant byte first; every other byte of memory, every context, instance, port and
argument register is unchanged; `RESULT = Nr`. -/
def Obligations.ReadRkWritesSchedule : Prop :=
  ∀ (n : BitVec 4) (s : State), Started s → s.mem.Wf → (s.aesCtx n).valid = true → (s.aesCtx n).nr.toNat ≤ 14 →
    Fits s.addr2 (16 * ((s.aesCtx n).nr.toNat + 1)) →
    ∃ t, exec (.aesReadRk n) s = .next t ∧
      t = { s with mem := t.mem, result := t.result, status := endedOk s, latch := Latch.idle } ∧
      t.result.toNat = (s.aesCtx n).nr.toNat ∧
      (∀ k j, k < 4 * ((s.aesCtx n).nr.toNat + 1) → j < 4 →
        t.mem.read (s.addr2 + 4 * k + j) = byteOf (entry (s.aesCtx n).rk k 0) (3 - j)) ∧
      ∀ a, ¬ (s.addr2 ≤ a ∧ a < s.addr2 + 16 * ((s.aesCtx n).nr.toNat + 1)) → t.mem.read a = s.mem.read a

/-- R145: `AES_CLEAR_KEY` always completes and puts the context at its reset value; nothing else changes
and `RESULT = 0`. -/
def Obligations.ClearKeyEmptiesContext : Prop :=
  ∀ (n : BitVec 4) (s : State), n.toNat < Config.params.nAes → Started s →
    ∃ t, exec (.aesClearKey n) s = .next t ∧
      t = { s with aes := t.aes, result := 0, status := endedOk s, latch := Latch.idle } ∧
      (t.aesCtx n).valid = false ∧ (t.aesCtx n).dir = .encrypt ∧ (t.aesCtx n).nr = 0 ∧
      (∀ k, entry (t.aesCtx n).rk k 0 = 0) ∧ ∀ m, m ≠ n → t.aesCtx m = s.aesCtx m

/-- R160, R161: `AES_PROCESS_BLOCK` completes on a keyed context when its buffers fit (`xor_in` only with
`XOR`): the 16 bytes at `A2` are the cipher of those at `A0` xored with those at `A1`, all as they stood
before; every other byte of memory and all other state but `RESULT` and `STATUS` is unchanged. -/
def Obligations.ProcessBlockWritesCipher : Prop :=
  ∀ (n : BitVec 4) (x : Bool) (s : State), Started s → s.mem.Wf → (s.aesCtx n).valid = true →
    Fits s.addr0 16 → (x = true → Fits s.addr1 16) → Fits s.addr2 16 →
    ∃ t, exec (.aesProcessBlock n x) s = .next t ∧
      t = { s with mem := t.mem, result := 0, status := endedOk s, latch := Latch.idle } ∧
      (∀ j, j < 16 → t.mem.read (s.addr2 + j) =
        (cipher (s.aesCtx n) (s.mem.readN s.addr0 16)).getD j 0 ^^^ (if x then s.mem.read (s.addr1 + j) else 0)) ∧
      ∀ a, ¬ (s.addr2 ≤ a ∧ a < s.addr2 + 16) → t.mem.read a = s.mem.read a

/-- R129: for every key of a legal length and every 16-byte block, decryption under the decryption
schedule undoes encryption under the encryption schedule. -/
def Obligations.DecryptionUndoesEncryption : Prop :=
  ∀ key p : List Byte, legalKeyLength key.length = true → p.length = 16 →
    cipher (keyedContext .decrypt key) (cipher (keyedContext .encrypt key) p) = p

/-- R171, R175: the counter increment for both widths: the last `c` bytes, read as a big-endian number,
grow by 1 modulo `2^(8c)`; the bytes before them do not change. -/
def Obligations.CounterIncrementAddsOne : Prop :=
  (Config.params.ctrIncBytes = 8 ∨ Config.params.ctrIncBytes = 16) ∧
  (∀ p, ctrInc p = ctrIncWidth Config.params.ctrIncBytes p) ∧
  ∀ (c : Nat) (p : List Byte), (c = 8 ∨ c = 16) → p.length = 16 →
    (ctrIncWidth c p).length = 16 ∧
    beNat ((ctrIncWidth c p).drop (16 - c)) = (beNat (p.drop (16 - c)) + 1) % 2 ^ (8 * c) ∧
    (ctrIncWidth c p).take (16 - c) = p.take (16 - c)

/-- R170, R172, R277: `AES_PROCESS_BLOCKS` completes on a keyed context when its ranges fit (nothing is
checked below 16 bytes): `RESULT = A3 mod 16`; memory changes only in the output range and, with
`IN_IS_COUNTER`, in the counter; all other state but `STATUS` is unchanged. -/
def Obligations.ProcessBlocksCompletes : Prop :=
  ∀ (n : BitVec 4) (x y d c : Bool) (s : State), Started s → (s.aesCtx n).valid = true → s.latch.k = 0 →
    (16 ≤ s.len3 → Fits s.addr0 (if d || c then 16 else 16 * (s.len3 / 16)) ∧
      (x = true → Fits s.addr1 (16 * (s.len3 / 16))) ∧ Fits s.addr2 (if d then 16 else 16 * (s.len3 / 16))) →
    ∃ t, exec (.aesProcessBlocks n x y d c) s = .next t ∧
      t = { s with mem := t.mem, result := t.result, status := endedOk s, latch := Latch.idle } ∧
      t.result.toNat = s.len3 % 16 ∧
      (s.len3 < 16 → t.mem = s.mem) ∧
      ∀ a, ¬ (s.addr2 ≤ a ∧ a < s.addr2 + (if d then 16 else 16 * (s.len3 / 16))) →
        ¬ (c = true ∧ s.addr0 ≤ a ∧ a < s.addr0 + 16) → t.mem.read a = s.mem.read a

/-- R170, R172: `AES_PROCESS_BLOCKS` on one block, for each of the 16 values of its flags: the output block
is the cipher of the input block, the xor block (zeros without `XOR`) going in before the cipher with
`XOR_INPUT` and after it without; with `IN_IS_COUNTER` the incremented input block is then written back. -/
def Obligations.OneBlockBulkCommand : Prop :=
  ∀ (n : BitVec 4) (x y d c : Bool) (s : State), Started s → (s.aesCtx n).valid = true → s.latch.k = 0 →
    16 ≤ s.len3 → s.len3 < 32 → Fits s.addr0 16 → (x = true → Fits s.addr1 16) → Fits s.addr2 16 →
    let p := s.mem.readN s.addr0 16
    let v := if x then s.mem.readN s.addr1 16 else List.replicate 16 0
    let m := s.mem.writeN s.addr2
      (if y then cipher (s.aesCtx n) (xorBytes p v) else xorBytes (cipher (s.aesCtx n) p) v)
    exec (.aesProcessBlocks n x y d c) s = .next { s with
      mem := if c then m.writeN s.addr0 (ctrInc p) else m
      result := BitVec.ofNat 32 (s.len3 - 16)
      status := endedOk s
      latch := Latch.idle }

/-- R170, R173, R175: `AES_PROCESS_BLOCKS` does what the same command does on its blocks one after the
other, with `A0` stepping by 16 unless `DONT_INCREMENT` or `IN_IS_COUNTER`, `A1` always, `A2` unless
`DONT_INCREMENT`, each block seeing the memory the one before it left. This holds for every flag, however
the buffers overlap. -/
def Obligations.BulkCommandGoesBlockByBlock : Prop :=
  ∀ (n : BitVec 4) (x y d c : Bool) (s t : State), (s.aesCtx n).valid = true → s.latch.k = 0 →
    (16 ≤ s.len3 → Fits s.addr0 (if d || c then 16 else 16 * (s.len3 / 16)) ∧
      (x = true → Fits s.addr1 (16 * (s.len3 / 16))) ∧ Fits s.addr2 (if d then 16 else 16 * (s.len3 / 16))) →
    exec (.aesProcessBlocks n x y d c) s = .next t →
    t.mem = (List.range (s.len3 / 16)).foldl (fun m k =>
      memoryAfter (exec (.aesProcessBlocks n x y d c) (onBuffers s m (s.addr0 + k * (if d || c then 0 else 16))
        (s.addr1 + 16 * k) (s.addr2 + k * (if d then 0 else 16)) 16)) m) s.mem

/-- R171, R172, R173: in counter mode, with buffers that do not overlap the counter or each other, block
`k` of the output is the cipher of the counter incremented `k` times, xored with block `k` of `xor_in`,
and the counter ends incremented once for each block. -/
def Obligations.CounterModeUsesSuccessiveCounters : Prop :=
  ∀ (n : BitVec 4) (s t : State) (k : Nat), s.mem.Wf → (s.aesCtx n).valid = true → s.latch.k = 0 →
    Fits s.addr0 16 → Fits s.addr1 (16 * (s.len3 / 16)) → Fits s.addr2 (16 * (s.len3 / 16)) →
    Disjoint s.addr0 16 s.addr2 (16 * (s.len3 / 16)) →
    Disjoint s.addr1 (16 * (s.len3 / 16)) s.addr2 (16 * (s.len3 / 16)) →
    Disjoint s.addr1 (16 * (s.len3 / 16)) s.addr0 16 →
    exec (.aesProcessBlocks n true false false true) s = .next t → k < s.len3 / 16 →
    let ctr := s.mem.readN s.addr0 16
    t.mem.readN (s.addr2 + 16 * k) 16 =
        xorBytes (cipher (s.aesCtx n) (ctrInc^[k] ctr)) (s.mem.readN (s.addr1 + 16 * k) 16) ∧
      t.mem.readN s.addr0 16 = ctrInc^[s.len3 / 16] ctr

/-! ### The put commands (spec/44_filter_interface.md) -/

/-- R201, R24, R196: a put changes its own instance, its own port, `RESULT`, `STATUS` and the latches
only; every other instance and port, every context, every argument register and all of memory stay; and
the port's history only grows. -/
def Obligations.PutsTouchOnlyTheirInstance : Prop :=
  ∀ (n : BitVec 4) (k : Bool) (m : Byte) (s t : State),
    (exec (.bencPut n k m) s = .next t →
      t = { s with enc := t.enc, outE := t.outE, result := t.result, status := t.status, latch := t.latch } ∧
      (∀ q, q ≠ n → t.encoder q = s.encoder q ∧ t.portE q = s.portE q) ∧
      ∀ q, (s.portE q).history <+: (t.portE q).history) ∧
    (exec (.bdecPut n k m) s = .next t →
      t = { s with dec := t.dec, outD := t.outD, result := t.result, status := t.status, latch := t.latch } ∧
      (∀ q, q ≠ n → t.decoder q = s.decoder q ∧ t.portD q = s.portD q) ∧
      ∀ q, (s.portD q).history <+: (t.portD q).history) ∧
    (exec (.grpPut n k m) s = .next t →
      t = { s with grp := t.grp, outG := t.outG, result := t.result, status := t.status, latch := t.latch } ∧
      (∀ q, q ≠ n → t.grouper q = s.grouper q ∧ t.portG q = s.portG q) ∧
      ∀ q, (s.portG q).history <+: (t.portG q).history)

/-- R194, R198, R212, R214, R215: when a non-blocking `BENC_PUT` stalls, on an offer of which its sink takes
`a` bytes, fewer than all: `STALLED`, no error, `RESULT` the bytes not consumed, and the emission pending
with `a` more bytes taken. A put that resumes stalls at once, on the pending emission, and consumes nothing;
one on an idle encoder stalls on the first block that its input fills, with its byte `c`; and one whose input
fills no block stalls on the end of the message, with nothing left. -/
def Obligations.EncoderPutStalls : Prop :=
  ∀ (n : BitVec 4) (m : Byte) (s : State), n.toNat < Config.params.nBenc → Started s → s.latch.pos = 0 →
    Fits s.addr0 s.len3 → (s.encoder n).valid = true →
    let e := s.encoder n
    let a := nextAnswer .encoder n (s.portE n)
    let input := s.mem.readN s.addr0 s.len3
    let symbols (c : Nat) := symbolsOfBits e.b e.alphabet.toList (heldBits e ++ bitsOf (input.take c))
    (e.fsm ≠ .idle →
      let d := (e.outBuf.toList.take e.pendLen).drop e.pendOff
      a < d.length →
      ∃ t, exec (.bencPut n false m) s = .next t ∧ t.status = endedStalled s ∧ t.result.toNat = s.len3 ∧
        t.encoder n = { e with pendOff := e.pendOff + a } ∧
        (t.portE n).history = (s.portE n).history ++ [.offer d e.pendMel false a]) ∧
    (e.Inv → e.fsm = .idle → ∀ c, c ≤ s.len3 → (heldBits e).length + 8 * c = e.obs * e.b → a < e.obs →
      ∃ t, exec (.bencPut n false m) s = .next t ∧ t.status = endedStalled s ∧ t.result.toNat = s.len3 - c ∧
        t.encoder n = { e with
          outBuf := (t.encoder n).outBuf, bytePos := (t.encoder n).bytePos, bitPos := (t.encoder n).bitPos,
          fsm := .pendBlock, pendLen := e.obs, pendOff := a, pendMel := 0 } ∧
        (t.encoder n).outBuf.toList.take e.obs = symbols c ∧
        (t.portE n).history = (s.portE n).history ++ [.offer (symbols c) 0 false a]) ∧
    (e.Inv → e.fsm = .idle → 1 ≤ m.toNat → (heldBits e).length + 8 * s.len3 < e.obs * e.b →
      let d := padded e.padEn e.padByte e.obs (symbols s.len3)
      a < d.length →
      ∃ t, exec (.bencPut n false m) s = .next t ∧ t.status = endedStalled s ∧ t.result = 0 ∧
        t.encoder n = { e with
          outBuf := (t.encoder n).outBuf, bytePos := (t.encoder n).bytePos, bitPos := 0,
          fsm := .pendEom, pendLen := d.length, pendOff := a, pendMel := m.toNat - 1 } ∧
        (t.encoder n).outBuf.toList.take d.length = d ∧
        (t.portE n).history = (s.portE n).history ++ [.offer d (m.toNat - 1) false a])

/-- R194, R198, R232, R233, R234: when a non-blocking `BDEC_PUT` stalls, on an offer of which its sink takes
`a` bytes, fewer than all, as for the encoder: at once on a pending emission; on the first group that the
symbols of its input fill, with its byte `c`; or, if they fill none, on the end of the message. -/
def Obligations.DecoderPutStalls : Prop :=
  ∀ (n : BitVec 4) (m : Byte) (s : State), n.toNat < Config.params.nBdec → Started s → s.latch.pos = 0 →
    Fits s.addr0 s.len3 → (s.decoder n).valid = true →
    let d := s.decoder n
    let a := nextAnswer .decoder n (s.portD n)
    let bits (c : Nat) := heldByteBits d ++ decodedBits d.b d.lookup.toList ((s.mem.readN s.addr0 s.len3).take c)
    (d.fsm ≠ .idle →
      let x := (d.outBuf.toList.take d.pendLen).drop d.pendOff
      a < x.length →
      ∃ t, exec (.bdecPut n false m) s = .next t ∧ t.status = endedStalled s ∧ t.result.toNat = s.len3 ∧
        t.decoder n = { d with pendOff := d.pendOff + a } ∧
        (t.portD n).history = (s.portD n).history ++ [.offer x d.pendMel false a]) ∧
    (d.Inv → d.fsm = .idle → ∀ c, c ≤ s.len3 → (bits (c - 1)).length < 8 * d.obs → (bits c).length = 8 * d.obs →
      a < d.obs →
      ∃ t, exec (.bdecPut n false m) s = .next t ∧ t.status = endedStalled s ∧ t.result.toNat = s.len3 - c ∧
        t.decoder n = { d with
          outBuf := (t.decoder n).outBuf, bytePos := (t.decoder n).bytePos, bitPos := (t.decoder n).bitPos,
          fsm := .pendBlock, pendLen := d.obs, pendOff := a, pendMel := 0 } ∧
        (t.decoder n).outBuf.toList.take d.obs = wholeBytes (bits c) ∧
        (t.portD n).history = (s.portD n).history ++ [.offer (wholeBytes (bits c)) 0 false a]) ∧
    (d.Inv → d.fsm = .idle → 1 ≤ m.toNat → (bits s.len3).length < 8 * d.obs →
      let x := wholeBytes (bits s.len3)
      a < x.length →
      ∃ t, exec (.bdecPut n false m) s = .next t ∧ t.status = endedStalled s ∧ t.result = 0 ∧
        t.decoder n = { d with
          outBuf := (t.decoder n).outBuf, bytePos := (t.decoder n).bytePos, bitPos := (t.decoder n).bitPos,
          fsm := .pendEom, pendLen := x.length, pendOff := a, pendMel := m.toNat - 1 } ∧
        (t.decoder n).outBuf.toList.take x.length = x ∧
        (t.portD n).history = (s.portD n).history ++ [.offer x (m.toNat - 1) false a])

/-- R194, R198, R251 to R254: when a non-blocking `GRP_PUT` stalls, on an offer of which its sink takes `a`
bytes, fewer than all: at once on a pending separator or terminator, consuming nothing; on the first chunk
of its input, which leaves nothing pending, `RESULT` counting the untaken bytes; on a separator before its
first byte, which becomes pending and `RESULT = n`; on the terminator, if there is no input. -/
def Obligations.GrouperPutStalls : Prop :=
  ∀ (n : BitVec 4) (m : Byte) (s : State), n.toNat < Config.params.nGrp → Started s → s.latch.pos = 0 →
    Fits s.addr0 s.len3 → (s.grouper n).valid = true →
    let g := s.grouper n
    let a := nextAnswer .grouper n (s.portG n)
    let size := g.groupSize.toNat
    (g.fsm ≠ .idle →
      let d := ((if g.fsm = .pendSep then g.sep.toList.take g.sepLen else g.term.toList.take g.termLen)).drop g.pendOff
      a < d.length →
      ∃ t, exec (.grpPut n false m) s = .next t ∧ t.status = endedStalled s ∧ t.result.toNat = s.len3 ∧
        t.grouper n = { g with pendOff := g.pendOff + a } ∧
        (t.portG n).history = (s.portG n).history ++ [.offer d g.pendMel false a]) ∧
    (g.fsm = .idle → (size = 0 ∨ g.counter < size) →
      let chunk := if size = 0 then s.len3 else min s.len3 (size - g.counter)
      a < chunk →
      ∃ t, exec (.grpPut n false m) s = .next t ∧ t.status = endedStalled s ∧ t.result.toNat = s.len3 - a ∧
        t.grouper n = { g with counter := if size = 0 then g.counter else g.counter + a } ∧
        (t.portG n).history = (s.portG n).history ++ [.offer (s.mem.readN s.addr0 chunk) 0 false a]) ∧
    (g.Inv → g.fsm = .idle → 0 < size → g.counter = size → 0 < s.len3 → a < g.sepLen →
      ∃ t, exec (.grpPut n false m) s = .next t ∧ t.status = endedStalled s ∧ t.result.toNat = s.len3 ∧
        t.grouper n = { g with fsm := .pendSep, pendOff := a, pendMel := 0 } ∧
        (t.portG n).history = (s.portG n).history ++ [.offer (g.sep.toList.take g.sepLen) 0 false a]) ∧
    (g.Inv → g.fsm = .idle → s.len3 = 0 → 1 ≤ m.toNat → a < g.termLen →
      ∃ t, exec (.grpPut n false m) s = .next t ∧ t.status = endedStalled s ∧ t.result = 0 ∧
        t.grouper n = { g with fsm := .pendTerm, pendOff := a, pendMel := m.toNat - 1 } ∧
        (t.portG n).history = (s.portG n).history ++ [.offer (g.term.toList.take g.termLen) (m.toNat - 1) false a])

/-- R197: a put that completes a pending end-of-message emission consumes nothing and ends with
`RESULT = n`, whatever its `mel` and `BLOCKING`; the rest of the emission and its `End` join the stream, and
the cursors are reset. -/
def Obligations.PendingMessageEndIsCompletedAlone : Prop :=
  ∀ (n : BitVec 4) (k : Bool) (m : Byte) (s : State), Started s → s.latch.pos = 0 → Fits s.addr0 s.len3 →
    (∀ e, n.toNat < Config.params.nBenc → s.encoder n = e → e.valid = true → e.Inv → e.fsm = .pendEom →
      e.pendLen - e.pendOff ≤ nextAnswer .encoder n (s.portE n) →
      ∃ t, exec (.bencPut n k m) s = .next t ∧ t.status = endedOk s ∧ t.result.toNat = s.len3 ∧
        t.encoder n = { e with
          outBuf := Vector.replicate 8 0, bytePos := 0, bitPos := 0, fsm := .idle, pendLen := 0, pendOff := 0, pendMel := 0 } ∧
        streamOf (t.portE n).history = streamOf (s.portE n).history
          ++ ((e.outBuf.toList.take e.pendLen).drop e.pendOff).map .byte
          ++ (if 1 ≤ e.pendMel then [.ended e.pendMel] else [])) ∧
    (∀ d, n.toNat < Config.params.nBdec → s.decoder n = d → d.valid = true → d.Inv → d.fsm = .pendEom →
      d.pendLen - d.pendOff ≤ nextAnswer .decoder n (s.portD n) →
      ∃ t, exec (.bdecPut n k m) s = .next t ∧ t.status = endedOk s ∧ t.result.toNat = s.len3 ∧
        t.decoder n = { d with
          outBuf := Vector.replicate 7 0, bytePos := 0, bitPos := 0, fsm := .idle, pendLen := 0, pendOff := 0, pendMel := 0 } ∧
        streamOf (t.portD n).history = streamOf (s.portD n).history
          ++ ((d.outBuf.toList.take d.pendLen).drop d.pendOff).map .byte
          ++ (if 1 ≤ d.pendMel then [.ended d.pendMel] else [])) ∧
    (∀ g, n.toNat < Config.params.nGrp → s.grouper n = g → g.valid = true → g.Inv → g.fsm = .pendTerm →
      g.termLen - g.pendOff ≤ nextAnswer .grouper n (s.portG n) →
      ∃ t, exec (.grpPut n k m) s = .next t ∧ t.status = endedOk s ∧ t.result.toNat = s.len3 ∧
        t.grouper n = { g with fsm := .idle, pendOff := 0, pendMel := 0, counter := 0 } ∧
        streamOf (t.portG n).history = streamOf (s.portG n).history
          ++ ((g.term.toList.take g.termLen).drop g.pendOff).map .byte
          ++ (if 1 ≤ g.pendMel then [.ended g.pendMel] else []))

/-- R193, R199: how much the sink takes at each offer does not matter: two blocking puts of the same message
into the same unit that both end leave the same unit and the same output stream. -/
def Obligations.SinkPaceDoesNotMatter : Prop :=
  ∀ (l : List Byte) (mel : Nat) (sa sb : Nat → Nat) (as bs : List Nat),
    (∀ e : Encoder, e.Inv → (putMessage encoderUnit encoderBody e l true mel sa as).1 = .go →
      (putMessage encoderUnit encoderBody e l true mel sb bs).1 = .go →
      putMessage encoderUnit encoderBody e l true mel sa as = putMessage encoderUnit encoderBody e l true mel sb bs) ∧
    (∀ d : Decoder, d.Inv → (putMessage decoderUnit decoderBody d l true mel sa as).1 = .go →
      (putMessage decoderUnit decoderBody d l true mel sb bs).1 = .go →
      putMessage decoderUnit decoderBody d l true mel sa as = putMessage decoderUnit decoderBody d l true mel sb bs) ∧
    (∀ g : Grouper, g.Inv → (putMessage grouperUnit grouperBody g l true mel sa as).1 = .go →
      (putMessage grouperUnit grouperBody g l true mel sb bs).1 = .go →
      putMessage grouperUnit grouperBody g l true mel sa as = putMessage grouperUnit grouperBody g l true mel sb bs)

/-- R197, R199: however a message is split into puts, whichever of them are blocking and however much the
sinks take at each offer, every stall resumed with the rest of the bytes: the output stream and the unit
after the message's end are the same. -/
def Obligations.SplittingDoesNotMatter : Prop :=
  ∀ (l : List Byte) (mel : Nat), 1 ≤ mel →
    (∀ (e x y : Encoder) (p q : List StreamItem), e.Inv → e.valid = true → e.fsm = .idle →
      Session encoderUnit encoderBody mel e l x p → Session encoderUnit encoderBody mel e l y q → x = y ∧ p = q) ∧
    (∀ (d x y : Decoder) (p q : List StreamItem), d.Inv → d.valid = true → d.fsm = .idle →
      Session decoderUnit decoderBody mel d l x p → Session decoderUnit decoderBody mel d l y q → x = y ∧ p = q) ∧
    (∀ (g x y : Grouper) (p q : List StreamItem), g.Inv → g.valid = true → g.fsm = .idle →
      Session grouperUnit grouperBody mel g l x p → Session grouperUnit grouperBody mel g l y q → x = y ∧ p = q)

/-! ### The encoder (spec/45_basen_encoder.md) -/

/-- R210, R235: the block sizes for every number of bits. -/
def Obligations.BlockSizesAreAsTabulated : Prop :=
  [1, 2, 3, 4, 5, 6, 7].map encoderBlockSize = [8, 4, 8, 2, 8, 4, 8] ∧
  [1, 2, 3, 4, 5, 6, 7].map decoderBlockSize = [1, 1, 3, 1, 5, 3, 7] ∧
  ∀ b, 1 ≤ b → b ≤ 7 → encoderBlockSize b * b = decoderBlockSize b * 8

/-- R211, R200: `BENC_INIT` with an alphabet, `BPC` in 1 to 7 and an alphabet that fits completes: the
instance is configured from the flags and the copied alphabet, its cursors and pending emission are at
reset; `RESULT = obs`; every other instance and unit and every byte of memory stay. -/
def Obligations.BencInitConfiguresEncoder : Prop :=
  ∀ (n : BitVec 4) (b : BitVec 3) (p f : Bool) (pad : Byte) (s : State), n.toNat < Config.params.nBenc → Started s →
    1 ≤ b.toNat → Fits s.addr0 (2 ^ b.toNat) →
    ∃ t, exec (.bencInit n b true p f pad) s = .next t ∧
      t = { s with enc := t.enc, result := t.result, status := endedOk s, latch := Latch.idle } ∧
      t.result.toNat = encoderBlockSize b.toNat ∧
      (t.encoder n).valid = true ∧ (t.encoder n).b = b.toNat ∧ (t.encoder n).obs = encoderBlockSize b.toNat ∧
      (∀ j, j < 2 ^ b.toNat → entry (t.encoder n).alphabet j 0 = s.mem.read (s.addr0 + j)) ∧
      (∀ j, 2 ^ b.toNat ≤ j → entry (t.encoder n).alphabet j 0 = 0) ∧
      (t.encoder n).padEn = (p && !f) ∧ (t.encoder n).padByte = (if p && !f then pad else 0) ∧
      (t.encoder n).outBuf = Vector.replicate 8 0 ∧ (t.encoder n).bytePos = 0 ∧ (t.encoder n).bitPos = 0 ∧
      (t.encoder n).fsm = .idle ∧ (t.encoder n).pendLen = 0 ∧ (t.encoder n).pendOff = 0 ∧
      (t.encoder n).pendMel = 0 ∧ ∀ m, m ≠ n → t.encoder m = s.encoder m

/-- R213: packing a byte into a legal idle encoder appends its eight bits, most significant first, to the
bits the encoder holds, and leaves its configuration alone. -/
def Obligations.PackByteAppendsBits : Prop :=
  ∀ (e : Encoder) (v : Byte), e.Inv → e.valid = true → e.fsm = .idle →
    heldBits (packByte e v) = heldBits e ++ bitsOfByte v ∧
    packByte e v = { e with outBuf := (packByte e v).outBuf, bytePos := (packByte e v).bytePos, bitPos := (packByte e v).bitPos }

/-- R212, R214, R215, R217: `BENC_PUT` of a whole message into a freshly configured encoder whose sink
takes everything completes: the output stream gains the message's bits in groups of `b`, looked up in the
alphabet and padded up to a block if padding is on, then `End(mel - 1)` if `mel ≥ 2`; `RESULT = 0` and the
encoder is as it was. -/
def Obligations.EncoderEncodesWholeMessages : Prop :=
  ∀ (n : BitVec 4) (k : Bool) (m : Byte) (s : State) (b : Nat) (alphabet : List Byte) (padOn : Bool) (pad : Byte),
    n.toNat < Config.params.nBenc → Started s → s.latch.pos = 0 → Fits s.addr0 s.len3 → 1 ≤ m.toNat →
    1 ≤ b → b ≤ 7 → alphabet.length = 2 ^ b → s.encoder n = configuredEncoder b padOn pad alphabet →
    TakesAll (s.portE n) (s.len3 + 2) 8 →
    ∃ t, exec (.bencPut n k m) s = .next t ∧ t.status = endedOk s ∧ t.result = 0 ∧ t.encoder n = s.encoder n ∧
      streamOf (t.portE n).history = streamOf (s.portE n).history
        ++ (padded padOn pad (encoderBlockSize b) (symbolsOf b alphabet (s.mem.readN s.addr0 s.len3))).map .byte
        ++ endItem m.toNat

/-- R196, R198, R212: `BENC_PUT` on a configured, legal encoder completes when the input fits and the
sink takes everything: the pending emission is out and the encoder idle; `RESULT` is 0, or `n` if the put
completed a pending end of message; nothing but the instance, its port, `RESULT` and `STATUS` changes. -/
def Obligations.BencPutCompletes : Prop :=
  ∀ (n : BitVec 4) (k : Bool) (m : Byte) (s : State), n.toNat < Config.params.nBenc → Started s → s.latch.pos = 0 →
    (s.encoder n).valid = true → (s.encoder n).Inv → Fits s.addr0 s.len3 → TakesAll (s.portE n) (s.len3 + 2) 8 →
    ∃ t, exec (.bencPut n k m) s = .next t ∧
      t = { s with enc := t.enc, outE := t.outE, result := t.result, status := endedOk s, latch := Latch.idle } ∧
      t.result.toNat = (if (s.encoder n).fsm = .pendEom then s.len3 else 0) ∧ (t.encoder n).fsm = .idle

/-! ### The decoder (spec/46_basen_decoder.md) -/

/-- R230: `BDEC_BUILD_LOOKUP` of at most 128 symbols, no two of which claim one slot, completes: entry
`q` of the table at `A2` is the number of the symbol that claims slot `q`, or the sentinel `0xFF`;
`RESULT` is the number of slots claimed; every other byte of memory and all other state stays. -/
def Obligations.BuildLookupWritesTable : Prop :=
  ∀ (ci : Bool) (s : State), Started s → s.mem.Wf → s.len3 ≤ 128 → Fits s.addr0 s.len3 → Fits s.addr2 256 →
    let alphabet := s.mem.readN s.addr0 s.len3
    (alphabet.flatMap (slotsOf ci)).Nodup →
    ∃ t, exec (.bdecBuildLookup ci) s = .next t ∧
      t = { s with mem := t.mem, result := t.result, status := endedOk s, latch := Latch.idle } ∧
      t.result.toNat = (alphabet.flatMap (slotsOf ci)).length ∧
      (∀ (v : Nat) (q : Byte), v < alphabet.length → q ∈ slotsOf ci (alphabet.getD v 0) →
        t.mem.read (s.addr2 + q.toNat) = BitVec.ofNat 8 v) ∧
      (∀ q : Byte, q ∉ alphabet.flatMap (slotsOf ci) → t.mem.read (s.addr2 + q.toNat) = 0xFF#8) ∧
      ∀ a, ¬ (s.addr2 ≤ a ∧ a < s.addr2 + 256) → t.mem.read a = s.mem.read a

/-- R231, R200: `BDEC_INIT` with a lookup table, `BPC` in 1 to 7 and a table that fits completes: the
instance is configured with the copied table, its cursors and pending emission at reset; `RESULT = obs`;
every other instance and unit and every byte of memory stay. -/
def Obligations.BdecInitConfiguresDecoder : Prop :=
  ∀ (n : BitVec 4) (b : BitVec 3) (s : State), n.toNat < Config.params.nBdec → Started s →
    1 ≤ b.toNat → Fits s.addr0 256 →
    ∃ t, exec (.bdecInit n b true) s = .next t ∧
      t = { s with dec := t.dec, result := t.result, status := endedOk s, latch := Latch.idle } ∧
      t.result.toNat = decoderBlockSize b.toNat ∧
      (t.decoder n).valid = true ∧ (t.decoder n).b = b.toNat ∧ (t.decoder n).obs = decoderBlockSize b.toNat ∧
      (∀ j, j < 256 → entry (t.decoder n).lookup j 0 = s.mem.read (s.addr0 + j)) ∧
      (t.decoder n).outBuf = Vector.replicate 7 0 ∧ (t.decoder n).bytePos = 0 ∧ (t.decoder n).bitPos = 0 ∧
      (t.decoder n).fsm = .idle ∧ (t.decoder n).pendLen = 0 ∧ (t.decoder n).pendOff = 0 ∧
      (t.decoder n).pendMel = 0 ∧ ∀ m, m ≠ n → t.decoder m = s.decoder m

/-- R196, R198, R232: `BDEC_PUT` on a configured, legal decoder completes when the input fits and the
sink takes everything: the decoder is idle after it; `RESULT` is 0, or `n` if the put completed a pending
end of message; nothing but the instance, its port, `RESULT` and `STATUS` changes. -/
def Obligations.BdecPutCompletes : Prop :=
  ∀ (n : BitVec 4) (k : Bool) (m : Byte) (s : State), n.toNat < Config.params.nBdec → Started s → s.latch.pos = 0 →
    (s.decoder n).valid = true → (s.decoder n).Inv → Fits s.addr0 s.len3 → TakesAll (s.portD n) (s.len3 + 2) 7 →
    ∃ t, exec (.bdecPut n k m) s = .next t ∧
      t = { s with dec := t.dec, outD := t.outD, result := t.result, status := endedOk s, latch := Latch.idle } ∧
      t.result.toNat = (if (s.decoder n).fsm = .pendEom then s.len3 else 0) ∧ (t.decoder n).fsm = .idle

/-- R232, R233, R234: `BDEC_PUT` of a whole message into a freshly configured decoder whose sink takes
everything completes: the output stream gains the whole bytes of the bits that the lookup table gives,
then `End(mel - 1)` if `mel ≥ 2`; `RESULT = 0` and the decoder is as it was. -/
def Obligations.DecoderDecodesWholeMessages : Prop :=
  ∀ (n : BitVec 4) (k : Bool) (m : Byte) (s : State) (b : Nat) (lookup : List Byte),
    n.toNat < Config.params.nBdec → Started s → s.latch.pos = 0 → Fits s.addr0 s.len3 → 1 ≤ m.toNat →
    1 ≤ b → b ≤ 7 → lookup.length = 256 → s.decoder n = configuredDecoder b lookup →
    TakesAll (s.portD n) (s.len3 + 2) 7 →
    ∃ t, exec (.bdecPut n k m) s = .next t ∧ t.status = endedOk s ∧ t.result = 0 ∧ t.decoder n = s.decoder n ∧
      streamOf (t.portD n).history = streamOf (s.portD n).history
        ++ (wholeBytes (decodedBits b lookup (s.mem.readN s.addr0 s.len3))).map .byte ++ endItem m.toNat

/-- R236, R237: for an alphabet of `2^b` distinct symbols, the table built from it, and a padding byte that
claims no slot of it, decoding what the encoder outputs for a message gives the message back; with
`CASE_INSENSITIVE`, so does decoding it with any of its letters in the other case. -/
def Obligations.DecodingUndoesEncoding : Prop :=
  ∀ (ci : Bool) (b : Nat) (alphabet l text : List Byte) (padOn : Bool) (pad : Byte) (table : LookupScratch),
    1 ≤ b → b ≤ 7 → alphabet.length = 2 ^ b → buildLookup ci alphabet = some table →
    pad ∉ alphabet.flatMap (slotsOf ci) →
    List.Forall₂ (fun c c' => c' ∈ slotsOf ci c)
      (outputBytes encoderUnit encoderBody (configuredEncoder b padOn pad alphabet) l) text →
    outputBytes decoderUnit decoderBody (configuredDecoder b table.table.toList) text = l

/-! ### The Grouper (spec/47_grouper.md) -/

/-- R250, R200: `GRP_INIT` with a separator whenever `group_size > 0` and strings of at most 255 bytes
that fit completes: the instance holds the copied strings (an absent one is empty), its counter and
pending emission at reset; `RESULT = 0`; everything else stays. -/
def Obligations.GrpInitConfiguresGrouper : Prop :=
  ∀ (n : BitVec 4) (p q : Bool) (s : State), n.toNat < Config.params.nGrp → Started s →
    (0 < s.param5.toNat → p = true) → (p = true → s.len3 ≤ 255 ∧ Fits s.addr0 s.len3) →
    (q = true → s.len4 ≤ 255 ∧ Fits s.addr1 s.len4) →
    ∃ t, exec (.grpInit n p q) s = .next t ∧
      t = { s with grp := t.grp, result := 0, status := endedOk s, latch := Latch.idle } ∧
      (t.grouper n).valid = true ∧ (t.grouper n).groupSize = s.param5 ∧
      (t.grouper n).sepLen = (if p then s.len3 else 0) ∧ (t.grouper n).termLen = (if q then s.len4 else 0) ∧
      (∀ j, entry (t.grouper n).sep j 0 = if p ∧ j < s.len3 then s.mem.read (s.addr0 + j) else 0) ∧
      (∀ j, entry (t.grouper n).term j 0 = if q ∧ j < s.len4 then s.mem.read (s.addr1 + j) else 0) ∧
      (t.grouper n).counter = 0 ∧ (t.grouper n).fsm = .idle ∧ (t.grouper n).pendOff = 0 ∧
      (t.grouper n).pendMel = 0 ∧ ∀ m, m ≠ n → t.grouper m = s.grouper m

/-- R196, R198, R251: `GRP_PUT` on a configured, legal Grouper completes when the input fits and the sink
takes everything: the Grouper is idle after it; `RESULT` is 0, or `n` if the put completed a pending
terminator; nothing but the instance, its port, `RESULT` and `STATUS` changes. -/
def Obligations.GrpPutCompletes : Prop :=
  ∀ (n : BitVec 4) (k : Bool) (m : Byte) (s : State), n.toNat < Config.params.nGrp → Started s → s.latch.pos = 0 →
    (s.grouper n).valid = true → (s.grouper n).Inv → Fits s.addr0 s.len3 →
    TakesAll (s.portG n) (2 * s.len3 + 2) (s.len3 + 255) →
    ∃ t, exec (.grpPut n k m) s = .next t ∧
      t = { s with grp := t.grp, outG := t.outG, result := t.result, status := endedOk s, latch := Latch.idle } ∧
      t.result.toNat = (if (s.grouper n).fsm = .pendTerm then s.len3 else 0) ∧ (t.grouper n).fsm = .idle

/-- R255, R251 to R254: a whole message put into a Grouper at the start of a message comes out cut into
groups with the separator between every two, then the terminator, then `End(mel - 1)` if `mel ≥ 2`; the
Grouper is again at the start of a message. -/
def Obligations.GrouperSeparatesGroups : Prop :=
  ∀ (n : BitVec 4) (k : Bool) (m : Byte) (s : State), n.toNat < Config.params.nGrp → Started s → s.latch.pos = 0 →
    (s.grouper n).valid = true → (s.grouper n).Inv → (s.grouper n).fsm = .idle → (s.grouper n).counter = 0 →
    Fits s.addr0 s.len3 → 1 ≤ m.toNat → TakesAll (s.portG n) (2 * s.len3 + 2) (s.len3 + 255) →
    ∃ t, exec (.grpPut n k m) s = .next t ∧ t.status = endedOk s ∧ t.result = 0 ∧ t.grouper n = s.grouper n ∧
      streamOf (t.portG n).history = streamOf (s.portG n).history
        ++ (grouped (s.grouper n).groupSize.toNat ((s.grouper n).sep.toList.take (s.grouper n).sepLen)
            (s.mem.readN s.addr0 s.len3)).map .byte
        ++ ((s.grouper n).term.toList.take (s.grouper n).termLen).map .byte ++ endItem m.toNat

/-! ### The host (spec/20_memory.md) -/

/-- R61, R68: what the host stores while no command runs it loads again, and a store changes no other
byte and nothing else. That this holds from `BUSY = 0` on, before the host has read `STATUS`, is the model's
choice (log 8). -/
def Obligations.HostLoadsWhatItStored : Prop :=
  ∀ (s : State) (a : Nat) (bytes : List Byte) (rest : List Input), s.mem.Wf → s.status.busy = false →
    Fits a bytes.length →
    ∃ t u, step { s with inputs := .store a bytes :: .load a bytes.length :: rest } = .next t ∧
      step t = .next u ∧ u.ldData = bytes ∧
      u = { s with mem := u.mem, inputs := rest, ldData := u.ldData, freeCount := u.freeCount } ∧
      ∀ b, ¬ (a ≤ b ∧ b < a + bytes.length) → u.mem.read b = s.mem.read b

/-! ### Invariants -/

/-- R22, R24, R47, R304: every step keeps the control state legal. -/
def Obligations.StepKeepsControlLegal : Prop :=
  ∀ s t : State, s.ControlInv → step s = .next t → t.ControlInv

/-- R60, R62: every step keeps memory in its canonical form, inside the address space. -/
def Obligations.StepKeepsMemoryCanonical : Prop :=
  ∀ s t : State, s.MemoryInv → step s = .next t → t.MemoryInv

/-- R30: every step keeps every AES context either empty or holding the schedule of some key of legal
length. -/
def Obligations.StepKeepsContextsLegal : Prop :=
  ∀ s t : State, s.AesInv → step s = .next t → t.AesInv

/-- R34, R35, R36: every step keeps every encoder instance legal. -/
def Obligations.StepKeepsEncodersLegal : Prop :=
  ∀ s t : State, s.EncoderInv → step s = .next t → t.EncoderInv

/-- R39, R40, R41: every step keeps every decoder instance legal. -/
def Obligations.StepKeepsDecodersLegal : Prop :=
  ∀ s t : State, s.DecoderInv → step s = .next t → t.DecoderInv

/-- R43, R44, R45: every step keeps every Grouper instance legal. -/
def Obligations.StepKeepsGroupersLegal : Prop :=
  ∀ s t : State, s.GrouperInv → step s = .next t → t.GrouperInv

/-- R46, R191, R192, R195: every step keeps the port histories legal. -/
def Obligations.StepKeepsHistoriesLegal : Prop :=
  ∀ s t : State, s.PortInv → step s = .next t → t.PortInv

/-- R48: the state after reset has the reset values and empty histories and is legal in every part. By the
model's own choice, and by no rule, nothing is listed in its memory (log 1: R48 and R60 leave memory's
contents open), no act is pending (log 4), and the latched arguments and cursors are 0 (log 7). -/
def Obligations.ResetStateIsLegal : Prop :=
  ResetValues State.reset ∧ State.reset.mem = [] ∧ State.reset.inputs = [] ∧
    (∀ u n, (State.reset.port u n).history = []) ∧ State.reset.Inv
end

