-- ==== Sys2Proof/Laws/State.lean ====
section
/-! SUPPORT. One lemma per field per update of the state, true by `rfl`, so that no proof unfolds a
record update; and the same for the accessors of banks and operands. -/

namespace Sys2Proof.Machine

/-! ### `startCommand` -/

@[simp] theorem State.startCommand_args (s : State) (w : Word) : (s.startCommand w).args = s.args := rfl
@[simp] theorem State.startCommand_result (s : State) (w : Word) : (s.startCommand w).result = 0 := rfl
@[simp] theorem State.startCommand_status (s : State) (w : Word) : (s.startCommand w).status = s.status.start := rfl
@[simp] theorem State.startCommand_latch (s : State) (w : Word) : (s.startCommand w).latch = ⟨w, s.args, 0, 0, 0⟩ := rfl
@[simp] theorem State.startCommand_aes (s : State) (w : Word) : (s.startCommand w).aes = s.aes := rfl
@[simp] theorem State.startCommand_enc (s : State) (w : Word) : (s.startCommand w).enc = s.enc := rfl
@[simp] theorem State.startCommand_dec (s : State) (w : Word) : (s.startCommand w).dec = s.dec := rfl
@[simp] theorem State.startCommand_grp (s : State) (w : Word) : (s.startCommand w).grp = s.grp := rfl
@[simp] theorem State.startCommand_outE (s : State) (w : Word) : (s.startCommand w).outE = s.outE := rfl
@[simp] theorem State.startCommand_outD (s : State) (w : Word) : (s.startCommand w).outD = s.outD := rfl
@[simp] theorem State.startCommand_outG (s : State) (w : Word) : (s.startCommand w).outG = s.outG := rfl
@[simp] theorem State.startCommand_mem (s : State) (w : Word) : (s.startCommand w).mem = s.mem := rfl
@[simp] theorem State.startCommand_inputs (s : State) (w : Word) : (s.startCommand w).inputs = s.inputs := rfl
@[simp] theorem State.startCommand_rdData (s : State) (w : Word) : (s.startCommand w).rdData = s.rdData := rfl
@[simp] theorem State.startCommand_ldData (s : State) (w : Word) : (s.startCommand w).ldData = s.ldData := rfl
@[simp] theorem State.startCommand_freeCount (s : State) (w : Word) : (s.startCommand w).freeCount = s.freeCount := rfl
@[simp] theorem State.startCommand_aesCtx (s : State) (w : Word) (j : BitVec 4) : (s.startCommand w).aesCtx j = s.aesCtx j := rfl
@[simp] theorem State.startCommand_encoder (s : State) (w : Word) (j : BitVec 4) : (s.startCommand w).encoder j = s.encoder j := rfl
@[simp] theorem State.startCommand_decoder (s : State) (w : Word) (j : BitVec 4) : (s.startCommand w).decoder j = s.decoder j := rfl
@[simp] theorem State.startCommand_grouper (s : State) (w : Word) (j : BitVec 4) : (s.startCommand w).grouper j = s.grouper j := rfl
@[simp] theorem State.startCommand_portE (s : State) (w : Word) (j : BitVec 4) : (s.startCommand w).portE j = s.portE j := rfl
@[simp] theorem State.startCommand_portD (s : State) (w : Word) (j : BitVec 4) : (s.startCommand w).portD j = s.portD j := rfl
@[simp] theorem State.startCommand_portG (s : State) (w : Word) (j : BitVec 4) : (s.startCommand w).portG j = s.portG j := rfl

/-! ### `raise` -/

@[simp] theorem State.raise_args (s : State) (c : ErrorCode) (a : ArgIndex) : (s.raise c a).args = s.args := rfl
@[simp] theorem State.raise_result (s : State) (c : ErrorCode) (a : ArgIndex) : (s.raise c a).result = s.result := rfl
@[simp] theorem State.raise_status (s : State) (c : ErrorCode) (a : ArgIndex) : (s.raise c a).status = s.status.fail c a := rfl
@[simp] theorem State.raise_latch (s : State) (c : ErrorCode) (a : ArgIndex) : (s.raise c a).latch = Latch.idle := rfl
@[simp] theorem State.raise_aes (s : State) (c : ErrorCode) (a : ArgIndex) : (s.raise c a).aes = s.aes := rfl
@[simp] theorem State.raise_enc (s : State) (c : ErrorCode) (a : ArgIndex) : (s.raise c a).enc = s.enc := rfl
@[simp] theorem State.raise_dec (s : State) (c : ErrorCode) (a : ArgIndex) : (s.raise c a).dec = s.dec := rfl
@[simp] theorem State.raise_grp (s : State) (c : ErrorCode) (a : ArgIndex) : (s.raise c a).grp = s.grp := rfl
@[simp] theorem State.raise_outE (s : State) (c : ErrorCode) (a : ArgIndex) : (s.raise c a).outE = s.outE := rfl
@[simp] theorem State.raise_outD (s : State) (c : ErrorCode) (a : ArgIndex) : (s.raise c a).outD = s.outD := rfl
@[simp] theorem State.raise_outG (s : State) (c : ErrorCode) (a : ArgIndex) : (s.raise c a).outG = s.outG := rfl
@[simp] theorem State.raise_mem (s : State) (c : ErrorCode) (a : ArgIndex) : (s.raise c a).mem = s.mem := rfl
@[simp] theorem State.raise_inputs (s : State) (c : ErrorCode) (a : ArgIndex) : (s.raise c a).inputs = s.inputs := rfl
@[simp] theorem State.raise_rdData (s : State) (c : ErrorCode) (a : ArgIndex) : (s.raise c a).rdData = s.rdData := rfl
@[simp] theorem State.raise_ldData (s : State) (c : ErrorCode) (a : ArgIndex) : (s.raise c a).ldData = s.ldData := rfl
@[simp] theorem State.raise_freeCount (s : State) (c : ErrorCode) (a : ArgIndex) : (s.raise c a).freeCount = s.freeCount := rfl
@[simp] theorem State.raise_aesCtx (s : State) (c : ErrorCode) (a : ArgIndex) (j : BitVec 4) : (s.raise c a).aesCtx j = s.aesCtx j := rfl
@[simp] theorem State.raise_encoder (s : State) (c : ErrorCode) (a : ArgIndex) (j : BitVec 4) : (s.raise c a).encoder j = s.encoder j := rfl
@[simp] theorem State.raise_decoder (s : State) (c : ErrorCode) (a : ArgIndex) (j : BitVec 4) : (s.raise c a).decoder j = s.decoder j := rfl
@[simp] theorem State.raise_grouper (s : State) (c : ErrorCode) (a : ArgIndex) (j : BitVec 4) : (s.raise c a).grouper j = s.grouper j := rfl
@[simp] theorem State.raise_portE (s : State) (c : ErrorCode) (a : ArgIndex) (j : BitVec 4) : (s.raise c a).portE j = s.portE j := rfl
@[simp] theorem State.raise_portD (s : State) (c : ErrorCode) (a : ArgIndex) (j : BitVec 4) : (s.raise c a).portD j = s.portD j := rfl
@[simp] theorem State.raise_portG (s : State) (c : ErrorCode) (a : ArgIndex) (j : BitVec 4) : (s.raise c a).portG j = s.portG j := rfl

/-! ### `finish` -/

@[simp] theorem State.finish_args (s : State) (r : Word) : (s.finish r).args = s.args := rfl
@[simp] theorem State.finish_result (s : State) (r : Word) : (s.finish r).result = r := rfl
@[simp] theorem State.finish_status (s : State) (r : Word) : (s.finish r).status = s.status.finish := rfl
@[simp] theorem State.finish_latch (s : State) (r : Word) : (s.finish r).latch = Latch.idle := rfl
@[simp] theorem State.finish_aes (s : State) (r : Word) : (s.finish r).aes = s.aes := rfl
@[simp] theorem State.finish_enc (s : State) (r : Word) : (s.finish r).enc = s.enc := rfl
@[simp] theorem State.finish_dec (s : State) (r : Word) : (s.finish r).dec = s.dec := rfl
@[simp] theorem State.finish_grp (s : State) (r : Word) : (s.finish r).grp = s.grp := rfl
@[simp] theorem State.finish_outE (s : State) (r : Word) : (s.finish r).outE = s.outE := rfl
@[simp] theorem State.finish_outD (s : State) (r : Word) : (s.finish r).outD = s.outD := rfl
@[simp] theorem State.finish_outG (s : State) (r : Word) : (s.finish r).outG = s.outG := rfl
@[simp] theorem State.finish_mem (s : State) (r : Word) : (s.finish r).mem = s.mem := rfl
@[simp] theorem State.finish_inputs (s : State) (r : Word) : (s.finish r).inputs = s.inputs := rfl
@[simp] theorem State.finish_rdData (s : State) (r : Word) : (s.finish r).rdData = s.rdData := rfl
@[simp] theorem State.finish_ldData (s : State) (r : Word) : (s.finish r).ldData = s.ldData := rfl
@[simp] theorem State.finish_freeCount (s : State) (r : Word) : (s.finish r).freeCount = s.freeCount := rfl
@[simp] theorem State.finish_aesCtx (s : State) (r : Word) (j : BitVec 4) : (s.finish r).aesCtx j = s.aesCtx j := rfl
@[simp] theorem State.finish_encoder (s : State) (r : Word) (j : BitVec 4) : (s.finish r).encoder j = s.encoder j := rfl
@[simp] theorem State.finish_decoder (s : State) (r : Word) (j : BitVec 4) : (s.finish r).decoder j = s.decoder j := rfl
@[simp] theorem State.finish_grouper (s : State) (r : Word) (j : BitVec 4) : (s.finish r).grouper j = s.grouper j := rfl
@[simp] theorem State.finish_portE (s : State) (r : Word) (j : BitVec 4) : (s.finish r).portE j = s.portE j := rfl
@[simp] theorem State.finish_portD (s : State) (r : Word) (j : BitVec 4) : (s.finish r).portD j = s.portD j := rfl
@[simp] theorem State.finish_portG (s : State) (r : Word) (j : BitVec 4) : (s.finish r).portG j = s.portG j := rfl

/-! ### `stall` -/

@[simp] theorem State.stall_args (s : State) (r : Word) : (s.stall r).args = s.args := rfl
@[simp] theorem State.stall_result (s : State) (r : Word) : (s.stall r).result = r := rfl
@[simp] theorem State.stall_status (s : State) (r : Word) : (s.stall r).status = s.status.stall := rfl
@[simp] theorem State.stall_latch (s : State) (r : Word) : (s.stall r).latch = Latch.idle := rfl
@[simp] theorem State.stall_aes (s : State) (r : Word) : (s.stall r).aes = s.aes := rfl
@[simp] theorem State.stall_enc (s : State) (r : Word) : (s.stall r).enc = s.enc := rfl
@[simp] theorem State.stall_dec (s : State) (r : Word) : (s.stall r).dec = s.dec := rfl
@[simp] theorem State.stall_grp (s : State) (r : Word) : (s.stall r).grp = s.grp := rfl
@[simp] theorem State.stall_outE (s : State) (r : Word) : (s.stall r).outE = s.outE := rfl
@[simp] theorem State.stall_outD (s : State) (r : Word) : (s.stall r).outD = s.outD := rfl
@[simp] theorem State.stall_outG (s : State) (r : Word) : (s.stall r).outG = s.outG := rfl
@[simp] theorem State.stall_mem (s : State) (r : Word) : (s.stall r).mem = s.mem := rfl
@[simp] theorem State.stall_inputs (s : State) (r : Word) : (s.stall r).inputs = s.inputs := rfl
@[simp] theorem State.stall_rdData (s : State) (r : Word) : (s.stall r).rdData = s.rdData := rfl
@[simp] theorem State.stall_ldData (s : State) (r : Word) : (s.stall r).ldData = s.ldData := rfl
@[simp] theorem State.stall_freeCount (s : State) (r : Word) : (s.stall r).freeCount = s.freeCount := rfl
@[simp] theorem State.stall_aesCtx (s : State) (r : Word) (j : BitVec 4) : (s.stall r).aesCtx j = s.aesCtx j := rfl
@[simp] theorem State.stall_encoder (s : State) (r : Word) (j : BitVec 4) : (s.stall r).encoder j = s.encoder j := rfl
@[simp] theorem State.stall_decoder (s : State) (r : Word) (j : BitVec 4) : (s.stall r).decoder j = s.decoder j := rfl
@[simp] theorem State.stall_grouper (s : State) (r : Word) (j : BitVec 4) : (s.stall r).grouper j = s.grouper j := rfl
@[simp] theorem State.stall_portE (s : State) (r : Word) (j : BitVec 4) : (s.stall r).portE j = s.portE j := rfl
@[simp] theorem State.stall_portD (s : State) (r : Word) (j : BitVec 4) : (s.stall r).portD j = s.portD j := rfl
@[simp] theorem State.stall_portG (s : State) (r : Word) (j : BitVec 4) : (s.stall r).portG j = s.portG j := rfl

/-! ### `setAesCtx` -/

@[simp] theorem State.setAesCtx_args (s : State) (i : BitVec 4) (c : AesCtx) : (s.setAesCtx i c).args = s.args := rfl
@[simp] theorem State.setAesCtx_result (s : State) (i : BitVec 4) (c : AesCtx) : (s.setAesCtx i c).result = s.result := rfl
@[simp] theorem State.setAesCtx_status (s : State) (i : BitVec 4) (c : AesCtx) : (s.setAesCtx i c).status = s.status := rfl
@[simp] theorem State.setAesCtx_latch (s : State) (i : BitVec 4) (c : AesCtx) : (s.setAesCtx i c).latch = s.latch := rfl
@[simp] theorem State.setAesCtx_aes (s : State) (i : BitVec 4) (c : AesCtx) : (s.setAesCtx i c).aes = setEntry s.aes i.toNat c := rfl
@[simp] theorem State.setAesCtx_enc (s : State) (i : BitVec 4) (c : AesCtx) : (s.setAesCtx i c).enc = s.enc := rfl
@[simp] theorem State.setAesCtx_dec (s : State) (i : BitVec 4) (c : AesCtx) : (s.setAesCtx i c).dec = s.dec := rfl
@[simp] theorem State.setAesCtx_grp (s : State) (i : BitVec 4) (c : AesCtx) : (s.setAesCtx i c).grp = s.grp := rfl
@[simp] theorem State.setAesCtx_outE (s : State) (i : BitVec 4) (c : AesCtx) : (s.setAesCtx i c).outE = s.outE := rfl
@[simp] theorem State.setAesCtx_outD (s : State) (i : BitVec 4) (c : AesCtx) : (s.setAesCtx i c).outD = s.outD := rfl
@[simp] theorem State.setAesCtx_outG (s : State) (i : BitVec 4) (c : AesCtx) : (s.setAesCtx i c).outG = s.outG := rfl
@[simp] theorem State.setAesCtx_mem (s : State) (i : BitVec 4) (c : AesCtx) : (s.setAesCtx i c).mem = s.mem := rfl
@[simp] theorem State.setAesCtx_inputs (s : State) (i : BitVec 4) (c : AesCtx) : (s.setAesCtx i c).inputs = s.inputs := rfl
@[simp] theorem State.setAesCtx_rdData (s : State) (i : BitVec 4) (c : AesCtx) : (s.setAesCtx i c).rdData = s.rdData := rfl
@[simp] theorem State.setAesCtx_ldData (s : State) (i : BitVec 4) (c : AesCtx) : (s.setAesCtx i c).ldData = s.ldData := rfl
@[simp] theorem State.setAesCtx_freeCount (s : State) (i : BitVec 4) (c : AesCtx) : (s.setAesCtx i c).freeCount = s.freeCount := rfl
@[simp] theorem State.setAesCtx_encoder (s : State) (i : BitVec 4) (c : AesCtx) (j : BitVec 4) : (s.setAesCtx i c).encoder j = s.encoder j := rfl
@[simp] theorem State.setAesCtx_decoder (s : State) (i : BitVec 4) (c : AesCtx) (j : BitVec 4) : (s.setAesCtx i c).decoder j = s.decoder j := rfl
@[simp] theorem State.setAesCtx_grouper (s : State) (i : BitVec 4) (c : AesCtx) (j : BitVec 4) : (s.setAesCtx i c).grouper j = s.grouper j := rfl
@[simp] theorem State.setAesCtx_portE (s : State) (i : BitVec 4) (c : AesCtx) (j : BitVec 4) : (s.setAesCtx i c).portE j = s.portE j := rfl
@[simp] theorem State.setAesCtx_portD (s : State) (i : BitVec 4) (c : AesCtx) (j : BitVec 4) : (s.setAesCtx i c).portD j = s.portD j := rfl
@[simp] theorem State.setAesCtx_portG (s : State) (i : BitVec 4) (c : AesCtx) (j : BitVec 4) : (s.setAesCtx i c).portG j = s.portG j := rfl
@[simp] theorem State.setAesCtx_addr0 (s : State) (i : BitVec 4) (c : AesCtx) : (s.setAesCtx i c).addr0 = s.addr0 := rfl
@[simp] theorem State.setAesCtx_addr1 (s : State) (i : BitVec 4) (c : AesCtx) : (s.setAesCtx i c).addr1 = s.addr1 := rfl
@[simp] theorem State.setAesCtx_addr2 (s : State) (i : BitVec 4) (c : AesCtx) : (s.setAesCtx i c).addr2 = s.addr2 := rfl
@[simp] theorem State.setAesCtx_len3 (s : State) (i : BitVec 4) (c : AesCtx) : (s.setAesCtx i c).len3 = s.len3 := rfl
@[simp] theorem State.setAesCtx_len4 (s : State) (i : BitVec 4) (c : AesCtx) : (s.setAesCtx i c).len4 = s.len4 := rfl
@[simp] theorem State.setAesCtx_param5 (s : State) (i : BitVec 4) (c : AesCtx) : (s.setAesCtx i c).param5 = s.param5 := rfl

/-! ### `setEncoder` -/

@[simp] theorem State.setEncoder_args (s : State) (i : BitVec 4) (e : Encoder) : (s.setEncoder i e).args = s.args := rfl
@[simp] theorem State.setEncoder_result (s : State) (i : BitVec 4) (e : Encoder) : (s.setEncoder i e).result = s.result := rfl
@[simp] theorem State.setEncoder_status (s : State) (i : BitVec 4) (e : Encoder) : (s.setEncoder i e).status = s.status := rfl
@[simp] theorem State.setEncoder_latch (s : State) (i : BitVec 4) (e : Encoder) : (s.setEncoder i e).latch = s.latch := rfl
@[simp] theorem State.setEncoder_aes (s : State) (i : BitVec 4) (e : Encoder) : (s.setEncoder i e).aes = s.aes := rfl
@[simp] theorem State.setEncoder_enc (s : State) (i : BitVec 4) (e : Encoder) : (s.setEncoder i e).enc = setEntry s.enc i.toNat e := rfl
@[simp] theorem State.setEncoder_dec (s : State) (i : BitVec 4) (e : Encoder) : (s.setEncoder i e).dec = s.dec := rfl
@[simp] theorem State.setEncoder_grp (s : State) (i : BitVec 4) (e : Encoder) : (s.setEncoder i e).grp = s.grp := rfl
@[simp] theorem State.setEncoder_outE (s : State) (i : BitVec 4) (e : Encoder) : (s.setEncoder i e).outE = s.outE := rfl
@[simp] theorem State.setEncoder_outD (s : State) (i : BitVec 4) (e : Encoder) : (s.setEncoder i e).outD = s.outD := rfl
@[simp] theorem State.setEncoder_outG (s : State) (i : BitVec 4) (e : Encoder) : (s.setEncoder i e).outG = s.outG := rfl
@[simp] theorem State.setEncoder_mem (s : State) (i : BitVec 4) (e : Encoder) : (s.setEncoder i e).mem = s.mem := rfl
@[simp] theorem State.setEncoder_inputs (s : State) (i : BitVec 4) (e : Encoder) : (s.setEncoder i e).inputs = s.inputs := rfl
@[simp] theorem State.setEncoder_rdData (s : State) (i : BitVec 4) (e : Encoder) : (s.setEncoder i e).rdData = s.rdData := rfl
@[simp] theorem State.setEncoder_ldData (s : State) (i : BitVec 4) (e : Encoder) : (s.setEncoder i e).ldData = s.ldData := rfl
@[simp] theorem State.setEncoder_freeCount (s : State) (i : BitVec 4) (e : Encoder) : (s.setEncoder i e).freeCount = s.freeCount := rfl
@[simp] theorem State.setEncoder_aesCtx (s : State) (i : BitVec 4) (e : Encoder) (j : BitVec 4) : (s.setEncoder i e).aesCtx j = s.aesCtx j := rfl
@[simp] theorem State.setEncoder_decoder (s : State) (i : BitVec 4) (e : Encoder) (j : BitVec 4) : (s.setEncoder i e).decoder j = s.decoder j := rfl
@[simp] theorem State.setEncoder_grouper (s : State) (i : BitVec 4) (e : Encoder) (j : BitVec 4) : (s.setEncoder i e).grouper j = s.grouper j := rfl
@[simp] theorem State.setEncoder_portE (s : State) (i : BitVec 4) (e : Encoder) (j : BitVec 4) : (s.setEncoder i e).portE j = s.portE j := rfl
@[simp] theorem State.setEncoder_portD (s : State) (i : BitVec 4) (e : Encoder) (j : BitVec 4) : (s.setEncoder i e).portD j = s.portD j := rfl
@[simp] theorem State.setEncoder_portG (s : State) (i : BitVec 4) (e : Encoder) (j : BitVec 4) : (s.setEncoder i e).portG j = s.portG j := rfl
@[simp] theorem State.setEncoder_addr0 (s : State) (i : BitVec 4) (e : Encoder) : (s.setEncoder i e).addr0 = s.addr0 := rfl
@[simp] theorem State.setEncoder_addr1 (s : State) (i : BitVec 4) (e : Encoder) : (s.setEncoder i e).addr1 = s.addr1 := rfl
@[simp] theorem State.setEncoder_addr2 (s : State) (i : BitVec 4) (e : Encoder) : (s.setEncoder i e).addr2 = s.addr2 := rfl
@[simp] theorem State.setEncoder_len3 (s : State) (i : BitVec 4) (e : Encoder) : (s.setEncoder i e).len3 = s.len3 := rfl
@[simp] theorem State.setEncoder_len4 (s : State) (i : BitVec 4) (e : Encoder) : (s.setEncoder i e).len4 = s.len4 := rfl
@[simp] theorem State.setEncoder_param5 (s : State) (i : BitVec 4) (e : Encoder) : (s.setEncoder i e).param5 = s.param5 := rfl

/-! ### `setDecoder` -/

@[simp] theorem State.setDecoder_args (s : State) (i : BitVec 4) (d : Decoder) : (s.setDecoder i d).args = s.args := rfl
@[simp] theorem State.setDecoder_result (s : State) (i : BitVec 4) (d : Decoder) : (s.setDecoder i d).result = s.result := rfl
@[simp] theorem State.setDecoder_status (s : State) (i : BitVec 4) (d : Decoder) : (s.setDecoder i d).status = s.status := rfl
@[simp] theorem State.setDecoder_latch (s : State) (i : BitVec 4) (d : Decoder) : (s.setDecoder i d).latch = s.latch := rfl
@[simp] theorem State.setDecoder_aes (s : State) (i : BitVec 4) (d : Decoder) : (s.setDecoder i d).aes = s.aes := rfl
@[simp] theorem State.setDecoder_enc (s : State) (i : BitVec 4) (d : Decoder) : (s.setDecoder i d).enc = s.enc := rfl
@[simp] theorem State.setDecoder_dec (s : State) (i : BitVec 4) (d : Decoder) : (s.setDecoder i d).dec = setEntry s.dec i.toNat d := rfl
@[simp] theorem State.setDecoder_grp (s : State) (i : BitVec 4) (d : Decoder) : (s.setDecoder i d).grp = s.grp := rfl
@[simp] theorem State.setDecoder_outE (s : State) (i : BitVec 4) (d : Decoder) : (s.setDecoder i d).outE = s.outE := rfl
@[simp] theorem State.setDecoder_outD (s : State) (i : BitVec 4) (d : Decoder) : (s.setDecoder i d).outD = s.outD := rfl
@[simp] theorem State.setDecoder_outG (s : State) (i : BitVec 4) (d : Decoder) : (s.setDecoder i d).outG = s.outG := rfl
@[simp] theorem State.setDecoder_mem (s : State) (i : BitVec 4) (d : Decoder) : (s.setDecoder i d).mem = s.mem := rfl
@[simp] theorem State.setDecoder_inputs (s : State) (i : BitVec 4) (d : Decoder) : (s.setDecoder i d).inputs = s.inputs := rfl
@[simp] theorem State.setDecoder_rdData (s : State) (i : BitVec 4) (d : Decoder) : (s.setDecoder i d).rdData = s.rdData := rfl
@[simp] theorem State.setDecoder_ldData (s : State) (i : BitVec 4) (d : Decoder) : (s.setDecoder i d).ldData = s.ldData := rfl
@[simp] theorem State.setDecoder_freeCount (s : State) (i : BitVec 4) (d : Decoder) : (s.setDecoder i d).freeCount = s.freeCount := rfl
@[simp] theorem State.setDecoder_aesCtx (s : State) (i : BitVec 4) (d : Decoder) (j : BitVec 4) : (s.setDecoder i d).aesCtx j = s.aesCtx j := rfl
@[simp] theorem State.setDecoder_encoder (s : State) (i : BitVec 4) (d : Decoder) (j : BitVec 4) : (s.setDecoder i d).encoder j = s.encoder j := rfl
@[simp] theorem State.setDecoder_grouper (s : State) (i : BitVec 4) (d : Decoder) (j : BitVec 4) : (s.setDecoder i d).grouper j = s.grouper j := rfl
@[simp] theorem State.setDecoder_portE (s : State) (i : BitVec 4) (d : Decoder) (j : BitVec 4) : (s.setDecoder i d).portE j = s.portE j := rfl
@[simp] theorem State.setDecoder_portD (s : State) (i : BitVec 4) (d : Decoder) (j : BitVec 4) : (s.setDecoder i d).portD j = s.portD j := rfl
@[simp] theorem State.setDecoder_portG (s : State) (i : BitVec 4) (d : Decoder) (j : BitVec 4) : (s.setDecoder i d).portG j = s.portG j := rfl
@[simp] theorem State.setDecoder_addr0 (s : State) (i : BitVec 4) (d : Decoder) : (s.setDecoder i d).addr0 = s.addr0 := rfl
@[simp] theorem State.setDecoder_addr1 (s : State) (i : BitVec 4) (d : Decoder) : (s.setDecoder i d).addr1 = s.addr1 := rfl
@[simp] theorem State.setDecoder_addr2 (s : State) (i : BitVec 4) (d : Decoder) : (s.setDecoder i d).addr2 = s.addr2 := rfl
@[simp] theorem State.setDecoder_len3 (s : State) (i : BitVec 4) (d : Decoder) : (s.setDecoder i d).len3 = s.len3 := rfl
@[simp] theorem State.setDecoder_len4 (s : State) (i : BitVec 4) (d : Decoder) : (s.setDecoder i d).len4 = s.len4 := rfl
@[simp] theorem State.setDecoder_param5 (s : State) (i : BitVec 4) (d : Decoder) : (s.setDecoder i d).param5 = s.param5 := rfl

/-! ### `setGrouper` -/

@[simp] theorem State.setGrouper_args (s : State) (i : BitVec 4) (g : Grouper) : (s.setGrouper i g).args = s.args := rfl
@[simp] theorem State.setGrouper_result (s : State) (i : BitVec 4) (g : Grouper) : (s.setGrouper i g).result = s.result := rfl
@[simp] theorem State.setGrouper_status (s : State) (i : BitVec 4) (g : Grouper) : (s.setGrouper i g).status = s.status := rfl
@[simp] theorem State.setGrouper_latch (s : State) (i : BitVec 4) (g : Grouper) : (s.setGrouper i g).latch = s.latch := rfl
@[simp] theorem State.setGrouper_aes (s : State) (i : BitVec 4) (g : Grouper) : (s.setGrouper i g).aes = s.aes := rfl
@[simp] theorem State.setGrouper_enc (s : State) (i : BitVec 4) (g : Grouper) : (s.setGrouper i g).enc = s.enc := rfl
@[simp] theorem State.setGrouper_dec (s : State) (i : BitVec 4) (g : Grouper) : (s.setGrouper i g).dec = s.dec := rfl
@[simp] theorem State.setGrouper_grp (s : State) (i : BitVec 4) (g : Grouper) : (s.setGrouper i g).grp = setEntry s.grp i.toNat g := rfl
@[simp] theorem State.setGrouper_outE (s : State) (i : BitVec 4) (g : Grouper) : (s.setGrouper i g).outE = s.outE := rfl
@[simp] theorem State.setGrouper_outD (s : State) (i : BitVec 4) (g : Grouper) : (s.setGrouper i g).outD = s.outD := rfl
@[simp] theorem State.setGrouper_outG (s : State) (i : BitVec 4) (g : Grouper) : (s.setGrouper i g).outG = s.outG := rfl
@[simp] theorem State.setGrouper_mem (s : State) (i : BitVec 4) (g : Grouper) : (s.setGrouper i g).mem = s.mem := rfl
@[simp] theorem State.setGrouper_inputs (s : State) (i : BitVec 4) (g : Grouper) : (s.setGrouper i g).inputs = s.inputs := rfl
@[simp] theorem State.setGrouper_rdData (s : State) (i : BitVec 4) (g : Grouper) : (s.setGrouper i g).rdData = s.rdData := rfl
@[simp] theorem State.setGrouper_ldData (s : State) (i : BitVec 4) (g : Grouper) : (s.setGrouper i g).ldData = s.ldData := rfl
@[simp] theorem State.setGrouper_freeCount (s : State) (i : BitVec 4) (g : Grouper) : (s.setGrouper i g).freeCount = s.freeCount := rfl
@[simp] theorem State.setGrouper_aesCtx (s : State) (i : BitVec 4) (g : Grouper) (j : BitVec 4) : (s.setGrouper i g).aesCtx j = s.aesCtx j := rfl
@[simp] theorem State.setGrouper_encoder (s : State) (i : BitVec 4) (g : Grouper) (j : BitVec 4) : (s.setGrouper i g).encoder j = s.encoder j := rfl
@[simp] theorem State.setGrouper_decoder (s : State) (i : BitVec 4) (g : Grouper) (j : BitVec 4) : (s.setGrouper i g).decoder j = s.decoder j := rfl
@[simp] theorem State.setGrouper_portE (s : State) (i : BitVec 4) (g : Grouper) (j : BitVec 4) : (s.setGrouper i g).portE j = s.portE j := rfl
@[simp] theorem State.setGrouper_portD (s : State) (i : BitVec 4) (g : Grouper) (j : BitVec 4) : (s.setGrouper i g).portD j = s.portD j := rfl
@[simp] theorem State.setGrouper_portG (s : State) (i : BitVec 4) (g : Grouper) (j : BitVec 4) : (s.setGrouper i g).portG j = s.portG j := rfl
@[simp] theorem State.setGrouper_addr0 (s : State) (i : BitVec 4) (g : Grouper) : (s.setGrouper i g).addr0 = s.addr0 := rfl
@[simp] theorem State.setGrouper_addr1 (s : State) (i : BitVec 4) (g : Grouper) : (s.setGrouper i g).addr1 = s.addr1 := rfl
@[simp] theorem State.setGrouper_addr2 (s : State) (i : BitVec 4) (g : Grouper) : (s.setGrouper i g).addr2 = s.addr2 := rfl
@[simp] theorem State.setGrouper_len3 (s : State) (i : BitVec 4) (g : Grouper) : (s.setGrouper i g).len3 = s.len3 := rfl
@[simp] theorem State.setGrouper_len4 (s : State) (i : BitVec 4) (g : Grouper) : (s.setGrouper i g).len4 = s.len4 := rfl
@[simp] theorem State.setGrouper_param5 (s : State) (i : BitVec 4) (g : Grouper) : (s.setGrouper i g).param5 = s.param5 := rfl

/-! ### `setPortE` -/

@[simp] theorem State.setPortE_args (s : State) (i : BitVec 4) (p : Port) : (s.setPortE i p).args = s.args := rfl
@[simp] theorem State.setPortE_result (s : State) (i : BitVec 4) (p : Port) : (s.setPortE i p).result = s.result := rfl
@[simp] theorem State.setPortE_status (s : State) (i : BitVec 4) (p : Port) : (s.setPortE i p).status = s.status := rfl
@[simp] theorem State.setPortE_latch (s : State) (i : BitVec 4) (p : Port) : (s.setPortE i p).latch = s.latch := rfl
@[simp] theorem State.setPortE_aes (s : State) (i : BitVec 4) (p : Port) : (s.setPortE i p).aes = s.aes := rfl
@[simp] theorem State.setPortE_enc (s : State) (i : BitVec 4) (p : Port) : (s.setPortE i p).enc = s.enc := rfl
@[simp] theorem State.setPortE_dec (s : State) (i : BitVec 4) (p : Port) : (s.setPortE i p).dec = s.dec := rfl
@[simp] theorem State.setPortE_grp (s : State) (i : BitVec 4) (p : Port) : (s.setPortE i p).grp = s.grp := rfl
@[simp] theorem State.setPortE_outE (s : State) (i : BitVec 4) (p : Port) : (s.setPortE i p).outE = setEntry s.outE i.toNat p := rfl
@[simp] theorem State.setPortE_outD (s : State) (i : BitVec 4) (p : Port) : (s.setPortE i p).outD = s.outD := rfl
@[simp] theorem State.setPortE_outG (s : State) (i : BitVec 4) (p : Port) : (s.setPortE i p).outG = s.outG := rfl
@[simp] theorem State.setPortE_mem (s : State) (i : BitVec 4) (p : Port) : (s.setPortE i p).mem = s.mem := rfl
@[simp] theorem State.setPortE_inputs (s : State) (i : BitVec 4) (p : Port) : (s.setPortE i p).inputs = s.inputs := rfl
@[simp] theorem State.setPortE_rdData (s : State) (i : BitVec 4) (p : Port) : (s.setPortE i p).rdData = s.rdData := rfl
@[simp] theorem State.setPortE_ldData (s : State) (i : BitVec 4) (p : Port) : (s.setPortE i p).ldData = s.ldData := rfl
@[simp] theorem State.setPortE_freeCount (s : State) (i : BitVec 4) (p : Port) : (s.setPortE i p).freeCount = s.freeCount := rfl
@[simp] theorem State.setPortE_aesCtx (s : State) (i : BitVec 4) (p : Port) (j : BitVec 4) : (s.setPortE i p).aesCtx j = s.aesCtx j := rfl
@[simp] theorem State.setPortE_encoder (s : State) (i : BitVec 4) (p : Port) (j : BitVec 4) : (s.setPortE i p).encoder j = s.encoder j := rfl
@[simp] theorem State.setPortE_decoder (s : State) (i : BitVec 4) (p : Port) (j : BitVec 4) : (s.setPortE i p).decoder j = s.decoder j := rfl
@[simp] theorem State.setPortE_grouper (s : State) (i : BitVec 4) (p : Port) (j : BitVec 4) : (s.setPortE i p).grouper j = s.grouper j := rfl
@[simp] theorem State.setPortE_portD (s : State) (i : BitVec 4) (p : Port) (j : BitVec 4) : (s.setPortE i p).portD j = s.portD j := rfl
@[simp] theorem State.setPortE_portG (s : State) (i : BitVec 4) (p : Port) (j : BitVec 4) : (s.setPortE i p).portG j = s.portG j := rfl
@[simp] theorem State.setPortE_addr0 (s : State) (i : BitVec 4) (p : Port) : (s.setPortE i p).addr0 = s.addr0 := rfl
@[simp] theorem State.setPortE_addr1 (s : State) (i : BitVec 4) (p : Port) : (s.setPortE i p).addr1 = s.addr1 := rfl
@[simp] theorem State.setPortE_addr2 (s : State) (i : BitVec 4) (p : Port) : (s.setPortE i p).addr2 = s.addr2 := rfl
@[simp] theorem State.setPortE_len3 (s : State) (i : BitVec 4) (p : Port) : (s.setPortE i p).len3 = s.len3 := rfl
@[simp] theorem State.setPortE_len4 (s : State) (i : BitVec 4) (p : Port) : (s.setPortE i p).len4 = s.len4 := rfl
@[simp] theorem State.setPortE_param5 (s : State) (i : BitVec 4) (p : Port) : (s.setPortE i p).param5 = s.param5 := rfl

/-! ### `setPortD` -/

@[simp] theorem State.setPortD_args (s : State) (i : BitVec 4) (p : Port) : (s.setPortD i p).args = s.args := rfl
@[simp] theorem State.setPortD_result (s : State) (i : BitVec 4) (p : Port) : (s.setPortD i p).result = s.result := rfl
@[simp] theorem State.setPortD_status (s : State) (i : BitVec 4) (p : Port) : (s.setPortD i p).status = s.status := rfl
@[simp] theorem State.setPortD_latch (s : State) (i : BitVec 4) (p : Port) : (s.setPortD i p).latch = s.latch := rfl
@[simp] theorem State.setPortD_aes (s : State) (i : BitVec 4) (p : Port) : (s.setPortD i p).aes = s.aes := rfl
@[simp] theorem State.setPortD_enc (s : State) (i : BitVec 4) (p : Port) : (s.setPortD i p).enc = s.enc := rfl
@[simp] theorem State.setPortD_dec (s : State) (i : BitVec 4) (p : Port) : (s.setPortD i p).dec = s.dec := rfl
@[simp] theorem State.setPortD_grp (s : State) (i : BitVec 4) (p : Port) : (s.setPortD i p).grp = s.grp := rfl
@[simp] theorem State.setPortD_outE (s : State) (i : BitVec 4) (p : Port) : (s.setPortD i p).outE = s.outE := rfl
@[simp] theorem State.setPortD_outD (s : State) (i : BitVec 4) (p : Port) : (s.setPortD i p).outD = setEntry s.outD i.toNat p := rfl
@[simp] theorem State.setPortD_outG (s : State) (i : BitVec 4) (p : Port) : (s.setPortD i p).outG = s.outG := rfl
@[simp] theorem State.setPortD_mem (s : State) (i : BitVec 4) (p : Port) : (s.setPortD i p).mem = s.mem := rfl
@[simp] theorem State.setPortD_inputs (s : State) (i : BitVec 4) (p : Port) : (s.setPortD i p).inputs = s.inputs := rfl
@[simp] theorem State.setPortD_rdData (s : State) (i : BitVec 4) (p : Port) : (s.setPortD i p).rdData = s.rdData := rfl
@[simp] theorem State.setPortD_ldData (s : State) (i : BitVec 4) (p : Port) : (s.setPortD i p).ldData = s.ldData := rfl
@[simp] theorem State.setPortD_freeCount (s : State) (i : BitVec 4) (p : Port) : (s.setPortD i p).freeCount = s.freeCount := rfl
@[simp] theorem State.setPortD_aesCtx (s : State) (i : BitVec 4) (p : Port) (j : BitVec 4) : (s.setPortD i p).aesCtx j = s.aesCtx j := rfl
@[simp] theorem State.setPortD_encoder (s : State) (i : BitVec 4) (p : Port) (j : BitVec 4) : (s.setPortD i p).encoder j = s.encoder j := rfl
@[simp] theorem State.setPortD_decoder (s : State) (i : BitVec 4) (p : Port) (j : BitVec 4) : (s.setPortD i p).decoder j = s.decoder j := rfl
@[simp] theorem State.setPortD_grouper (s : State) (i : BitVec 4) (p : Port) (j : BitVec 4) : (s.setPortD i p).grouper j = s.grouper j := rfl
@[simp] theorem State.setPortD_portE (s : State) (i : BitVec 4) (p : Port) (j : BitVec 4) : (s.setPortD i p).portE j = s.portE j := rfl
@[simp] theorem State.setPortD_portG (s : State) (i : BitVec 4) (p : Port) (j : BitVec 4) : (s.setPortD i p).portG j = s.portG j := rfl
@[simp] theorem State.setPortD_addr0 (s : State) (i : BitVec 4) (p : Port) : (s.setPortD i p).addr0 = s.addr0 := rfl
@[simp] theorem State.setPortD_addr1 (s : State) (i : BitVec 4) (p : Port) : (s.setPortD i p).addr1 = s.addr1 := rfl
@[simp] theorem State.setPortD_addr2 (s : State) (i : BitVec 4) (p : Port) : (s.setPortD i p).addr2 = s.addr2 := rfl
@[simp] theorem State.setPortD_len3 (s : State) (i : BitVec 4) (p : Port) : (s.setPortD i p).len3 = s.len3 := rfl
@[simp] theorem State.setPortD_len4 (s : State) (i : BitVec 4) (p : Port) : (s.setPortD i p).len4 = s.len4 := rfl
@[simp] theorem State.setPortD_param5 (s : State) (i : BitVec 4) (p : Port) : (s.setPortD i p).param5 = s.param5 := rfl

/-! ### `setPortG` -/

@[simp] theorem State.setPortG_args (s : State) (i : BitVec 4) (p : Port) : (s.setPortG i p).args = s.args := rfl
@[simp] theorem State.setPortG_result (s : State) (i : BitVec 4) (p : Port) : (s.setPortG i p).result = s.result := rfl
@[simp] theorem State.setPortG_status (s : State) (i : BitVec 4) (p : Port) : (s.setPortG i p).status = s.status := rfl
@[simp] theorem State.setPortG_latch (s : State) (i : BitVec 4) (p : Port) : (s.setPortG i p).latch = s.latch := rfl
@[simp] theorem State.setPortG_aes (s : State) (i : BitVec 4) (p : Port) : (s.setPortG i p).aes = s.aes := rfl
@[simp] theorem State.setPortG_enc (s : State) (i : BitVec 4) (p : Port) : (s.setPortG i p).enc = s.enc := rfl
@[simp] theorem State.setPortG_dec (s : State) (i : BitVec 4) (p : Port) : (s.setPortG i p).dec = s.dec := rfl
@[simp] theorem State.setPortG_grp (s : State) (i : BitVec 4) (p : Port) : (s.setPortG i p).grp = s.grp := rfl
@[simp] theorem State.setPortG_outE (s : State) (i : BitVec 4) (p : Port) : (s.setPortG i p).outE = s.outE := rfl
@[simp] theorem State.setPortG_outD (s : State) (i : BitVec 4) (p : Port) : (s.setPortG i p).outD = s.outD := rfl
@[simp] theorem State.setPortG_outG (s : State) (i : BitVec 4) (p : Port) : (s.setPortG i p).outG = setEntry s.outG i.toNat p := rfl
@[simp] theorem State.setPortG_mem (s : State) (i : BitVec 4) (p : Port) : (s.setPortG i p).mem = s.mem := rfl
@[simp] theorem State.setPortG_inputs (s : State) (i : BitVec 4) (p : Port) : (s.setPortG i p).inputs = s.inputs := rfl
@[simp] theorem State.setPortG_rdData (s : State) (i : BitVec 4) (p : Port) : (s.setPortG i p).rdData = s.rdData := rfl
@[simp] theorem State.setPortG_ldData (s : State) (i : BitVec 4) (p : Port) : (s.setPortG i p).ldData = s.ldData := rfl
@[simp] theorem State.setPortG_freeCount (s : State) (i : BitVec 4) (p : Port) : (s.setPortG i p).freeCount = s.freeCount := rfl
@[simp] theorem State.setPortG_aesCtx (s : State) (i : BitVec 4) (p : Port) (j : BitVec 4) : (s.setPortG i p).aesCtx j = s.aesCtx j := rfl
@[simp] theorem State.setPortG_encoder (s : State) (i : BitVec 4) (p : Port) (j : BitVec 4) : (s.setPortG i p).encoder j = s.encoder j := rfl
@[simp] theorem State.setPortG_decoder (s : State) (i : BitVec 4) (p : Port) (j : BitVec 4) : (s.setPortG i p).decoder j = s.decoder j := rfl
@[simp] theorem State.setPortG_grouper (s : State) (i : BitVec 4) (p : Port) (j : BitVec 4) : (s.setPortG i p).grouper j = s.grouper j := rfl
@[simp] theorem State.setPortG_portE (s : State) (i : BitVec 4) (p : Port) (j : BitVec 4) : (s.setPortG i p).portE j = s.portE j := rfl
@[simp] theorem State.setPortG_portD (s : State) (i : BitVec 4) (p : Port) (j : BitVec 4) : (s.setPortG i p).portD j = s.portD j := rfl
@[simp] theorem State.setPortG_addr0 (s : State) (i : BitVec 4) (p : Port) : (s.setPortG i p).addr0 = s.addr0 := rfl
@[simp] theorem State.setPortG_addr1 (s : State) (i : BitVec 4) (p : Port) : (s.setPortG i p).addr1 = s.addr1 := rfl
@[simp] theorem State.setPortG_addr2 (s : State) (i : BitVec 4) (p : Port) : (s.setPortG i p).addr2 = s.addr2 := rfl
@[simp] theorem State.setPortG_len3 (s : State) (i : BitVec 4) (p : Port) : (s.setPortG i p).len3 = s.len3 := rfl
@[simp] theorem State.setPortG_len4 (s : State) (i : BitVec 4) (p : Port) : (s.setPortG i p).len4 = s.len4 := rfl
@[simp] theorem State.setPortG_param5 (s : State) (i : BitVec 4) (p : Port) : (s.setPortG i p).param5 = s.param5 := rfl

/-! ### `setMem` -/

@[simp] theorem State.setMem_args (s : State) (m : Memory) : (s.setMem m).args = s.args := rfl
@[simp] theorem State.setMem_result (s : State) (m : Memory) : (s.setMem m).result = s.result := rfl
@[simp] theorem State.setMem_status (s : State) (m : Memory) : (s.setMem m).status = s.status := rfl
@[simp] theorem State.setMem_latch (s : State) (m : Memory) : (s.setMem m).latch = s.latch := rfl
@[simp] theorem State.setMem_aes (s : State) (m : Memory) : (s.setMem m).aes = s.aes := rfl
@[simp] theorem State.setMem_enc (s : State) (m : Memory) : (s.setMem m).enc = s.enc := rfl
@[simp] theorem State.setMem_dec (s : State) (m : Memory) : (s.setMem m).dec = s.dec := rfl
@[simp] theorem State.setMem_grp (s : State) (m : Memory) : (s.setMem m).grp = s.grp := rfl
@[simp] theorem State.setMem_outE (s : State) (m : Memory) : (s.setMem m).outE = s.outE := rfl
@[simp] theorem State.setMem_outD (s : State) (m : Memory) : (s.setMem m).outD = s.outD := rfl
@[simp] theorem State.setMem_outG (s : State) (m : Memory) : (s.setMem m).outG = s.outG := rfl
@[simp] theorem State.setMem_mem (s : State) (m : Memory) : (s.setMem m).mem = m := rfl
@[simp] theorem State.setMem_inputs (s : State) (m : Memory) : (s.setMem m).inputs = s.inputs := rfl
@[simp] theorem State.setMem_rdData (s : State) (m : Memory) : (s.setMem m).rdData = s.rdData := rfl
@[simp] theorem State.setMem_ldData (s : State) (m : Memory) : (s.setMem m).ldData = s.ldData := rfl
@[simp] theorem State.setMem_freeCount (s : State) (m : Memory) : (s.setMem m).freeCount = s.freeCount := rfl
@[simp] theorem State.setMem_aesCtx (s : State) (m : Memory) (j : BitVec 4) : (s.setMem m).aesCtx j = s.aesCtx j := rfl
@[simp] theorem State.setMem_encoder (s : State) (m : Memory) (j : BitVec 4) : (s.setMem m).encoder j = s.encoder j := rfl
@[simp] theorem State.setMem_decoder (s : State) (m : Memory) (j : BitVec 4) : (s.setMem m).decoder j = s.decoder j := rfl
@[simp] theorem State.setMem_grouper (s : State) (m : Memory) (j : BitVec 4) : (s.setMem m).grouper j = s.grouper j := rfl
@[simp] theorem State.setMem_portE (s : State) (m : Memory) (j : BitVec 4) : (s.setMem m).portE j = s.portE j := rfl
@[simp] theorem State.setMem_portD (s : State) (m : Memory) (j : BitVec 4) : (s.setMem m).portD j = s.portD j := rfl
@[simp] theorem State.setMem_portG (s : State) (m : Memory) (j : BitVec 4) : (s.setMem m).portG j = s.portG j := rfl
@[simp] theorem State.setMem_addr0 (s : State) (m : Memory) : (s.setMem m).addr0 = s.addr0 := rfl
@[simp] theorem State.setMem_addr1 (s : State) (m : Memory) : (s.setMem m).addr1 = s.addr1 := rfl
@[simp] theorem State.setMem_addr2 (s : State) (m : Memory) : (s.setMem m).addr2 = s.addr2 := rfl
@[simp] theorem State.setMem_len3 (s : State) (m : Memory) : (s.setMem m).len3 = s.len3 := rfl
@[simp] theorem State.setMem_len4 (s : State) (m : Memory) : (s.setMem m).len4 = s.len4 := rfl
@[simp] theorem State.setMem_param5 (s : State) (m : Memory) : (s.setMem m).param5 = s.param5 := rfl

/-! ### `setProgress` -/

@[simp] theorem State.setProgress_args (s : State) (n e : Nat) : (s.setProgress n e).args = s.args := rfl
@[simp] theorem State.setProgress_result (s : State) (n e : Nat) : (s.setProgress n e).result = s.result := rfl
@[simp] theorem State.setProgress_status (s : State) (n e : Nat) : (s.setProgress n e).status = s.status := rfl
@[simp] theorem State.setProgress_latch (s : State) (n e : Nat) : (s.setProgress n e).latch = { s.latch with pos := n, events := e } := rfl
@[simp] theorem State.setProgress_aes (s : State) (n e : Nat) : (s.setProgress n e).aes = s.aes := rfl
@[simp] theorem State.setProgress_enc (s : State) (n e : Nat) : (s.setProgress n e).enc = s.enc := rfl
@[simp] theorem State.setProgress_dec (s : State) (n e : Nat) : (s.setProgress n e).dec = s.dec := rfl
@[simp] theorem State.setProgress_grp (s : State) (n e : Nat) : (s.setProgress n e).grp = s.grp := rfl
@[simp] theorem State.setProgress_outE (s : State) (n e : Nat) : (s.setProgress n e).outE = s.outE := rfl
@[simp] theorem State.setProgress_outD (s : State) (n e : Nat) : (s.setProgress n e).outD = s.outD := rfl
@[simp] theorem State.setProgress_outG (s : State) (n e : Nat) : (s.setProgress n e).outG = s.outG := rfl
@[simp] theorem State.setProgress_mem (s : State) (n e : Nat) : (s.setProgress n e).mem = s.mem := rfl
@[simp] theorem State.setProgress_inputs (s : State) (n e : Nat) : (s.setProgress n e).inputs = s.inputs := rfl
@[simp] theorem State.setProgress_rdData (s : State) (n e : Nat) : (s.setProgress n e).rdData = s.rdData := rfl
@[simp] theorem State.setProgress_ldData (s : State) (n e : Nat) : (s.setProgress n e).ldData = s.ldData := rfl
@[simp] theorem State.setProgress_freeCount (s : State) (n e : Nat) : (s.setProgress n e).freeCount = s.freeCount := rfl
@[simp] theorem State.setProgress_aesCtx (s : State) (n e : Nat) (j : BitVec 4) : (s.setProgress n e).aesCtx j = s.aesCtx j := rfl
@[simp] theorem State.setProgress_encoder (s : State) (n e : Nat) (j : BitVec 4) : (s.setProgress n e).encoder j = s.encoder j := rfl
@[simp] theorem State.setProgress_decoder (s : State) (n e : Nat) (j : BitVec 4) : (s.setProgress n e).decoder j = s.decoder j := rfl
@[simp] theorem State.setProgress_grouper (s : State) (n e : Nat) (j : BitVec 4) : (s.setProgress n e).grouper j = s.grouper j := rfl
@[simp] theorem State.setProgress_portE (s : State) (n e : Nat) (j : BitVec 4) : (s.setProgress n e).portE j = s.portE j := rfl
@[simp] theorem State.setProgress_portD (s : State) (n e : Nat) (j : BitVec 4) : (s.setProgress n e).portD j = s.portD j := rfl
@[simp] theorem State.setProgress_portG (s : State) (n e : Nat) (j : BitVec 4) : (s.setProgress n e).portG j = s.portG j := rfl
@[simp] theorem State.setProgress_addr0 (s : State) (n e : Nat) : (s.setProgress n e).addr0 = s.addr0 := rfl
@[simp] theorem State.setProgress_addr1 (s : State) (n e : Nat) : (s.setProgress n e).addr1 = s.addr1 := rfl
@[simp] theorem State.setProgress_addr2 (s : State) (n e : Nat) : (s.setProgress n e).addr2 = s.addr2 := rfl
@[simp] theorem State.setProgress_len3 (s : State) (n e : Nat) : (s.setProgress n e).len3 = s.len3 := rfl
@[simp] theorem State.setProgress_len4 (s : State) (n e : Nat) : (s.setProgress n e).len4 = s.len4 := rfl
@[simp] theorem State.setProgress_param5 (s : State) (n e : Nat) : (s.setProgress n e).param5 = s.param5 := rfl

/-! ### `setK` -/

@[simp] theorem State.setK_args (s : State) (n : Nat) : (s.setK n).args = s.args := rfl
@[simp] theorem State.setK_result (s : State) (n : Nat) : (s.setK n).result = s.result := rfl
@[simp] theorem State.setK_status (s : State) (n : Nat) : (s.setK n).status = s.status := rfl
@[simp] theorem State.setK_latch (s : State) (n : Nat) : (s.setK n).latch = { s.latch with k := n } := rfl
@[simp] theorem State.setK_aes (s : State) (n : Nat) : (s.setK n).aes = s.aes := rfl
@[simp] theorem State.setK_enc (s : State) (n : Nat) : (s.setK n).enc = s.enc := rfl
@[simp] theorem State.setK_dec (s : State) (n : Nat) : (s.setK n).dec = s.dec := rfl
@[simp] theorem State.setK_grp (s : State) (n : Nat) : (s.setK n).grp = s.grp := rfl
@[simp] theorem State.setK_outE (s : State) (n : Nat) : (s.setK n).outE = s.outE := rfl
@[simp] theorem State.setK_outD (s : State) (n : Nat) : (s.setK n).outD = s.outD := rfl
@[simp] theorem State.setK_outG (s : State) (n : Nat) : (s.setK n).outG = s.outG := rfl
@[simp] theorem State.setK_mem (s : State) (n : Nat) : (s.setK n).mem = s.mem := rfl
@[simp] theorem State.setK_inputs (s : State) (n : Nat) : (s.setK n).inputs = s.inputs := rfl
@[simp] theorem State.setK_rdData (s : State) (n : Nat) : (s.setK n).rdData = s.rdData := rfl
@[simp] theorem State.setK_ldData (s : State) (n : Nat) : (s.setK n).ldData = s.ldData := rfl
@[simp] theorem State.setK_freeCount (s : State) (n : Nat) : (s.setK n).freeCount = s.freeCount := rfl
@[simp] theorem State.setK_aesCtx (s : State) (n : Nat) (j : BitVec 4) : (s.setK n).aesCtx j = s.aesCtx j := rfl
@[simp] theorem State.setK_encoder (s : State) (n : Nat) (j : BitVec 4) : (s.setK n).encoder j = s.encoder j := rfl
@[simp] theorem State.setK_decoder (s : State) (n : Nat) (j : BitVec 4) : (s.setK n).decoder j = s.decoder j := rfl
@[simp] theorem State.setK_grouper (s : State) (n : Nat) (j : BitVec 4) : (s.setK n).grouper j = s.grouper j := rfl
@[simp] theorem State.setK_portE (s : State) (n : Nat) (j : BitVec 4) : (s.setK n).portE j = s.portE j := rfl
@[simp] theorem State.setK_portD (s : State) (n : Nat) (j : BitVec 4) : (s.setK n).portD j = s.portD j := rfl
@[simp] theorem State.setK_portG (s : State) (n : Nat) (j : BitVec 4) : (s.setK n).portG j = s.portG j := rfl
@[simp] theorem State.setK_addr0 (s : State) (n : Nat) : (s.setK n).addr0 = s.addr0 := rfl
@[simp] theorem State.setK_addr1 (s : State) (n : Nat) : (s.setK n).addr1 = s.addr1 := rfl
@[simp] theorem State.setK_addr2 (s : State) (n : Nat) : (s.setK n).addr2 = s.addr2 := rfl
@[simp] theorem State.setK_len3 (s : State) (n : Nat) : (s.setK n).len3 = s.len3 := rfl
@[simp] theorem State.setK_len4 (s : State) (n : Nat) : (s.setK n).len4 = s.len4 := rfl
@[simp] theorem State.setK_param5 (s : State) (n : Nat) : (s.setK n).param5 = s.param5 := rfl

/-! ### `setPort`, which replaces a port whatever its unit -/

@[simp] theorem State.setPort_args (s : State) (u : FilterUnit) (n : BitVec 4) (p : Port) : (s.setPort u n p).args = s.args := by
  cases u <;> rfl
@[simp] theorem State.setPort_result (s : State) (u : FilterUnit) (n : BitVec 4) (p : Port) : (s.setPort u n p).result = s.result := by
  cases u <;> rfl
@[simp] theorem State.setPort_status (s : State) (u : FilterUnit) (n : BitVec 4) (p : Port) : (s.setPort u n p).status = s.status := by
  cases u <;> rfl
@[simp] theorem State.setPort_latch (s : State) (u : FilterUnit) (n : BitVec 4) (p : Port) : (s.setPort u n p).latch = s.latch := by
  cases u <;> rfl
@[simp] theorem State.setPort_aes (s : State) (u : FilterUnit) (n : BitVec 4) (p : Port) : (s.setPort u n p).aes = s.aes := by
  cases u <;> rfl
@[simp] theorem State.setPort_enc (s : State) (u : FilterUnit) (n : BitVec 4) (p : Port) : (s.setPort u n p).enc = s.enc := by
  cases u <;> rfl
@[simp] theorem State.setPort_dec (s : State) (u : FilterUnit) (n : BitVec 4) (p : Port) : (s.setPort u n p).dec = s.dec := by
  cases u <;> rfl
@[simp] theorem State.setPort_grp (s : State) (u : FilterUnit) (n : BitVec 4) (p : Port) : (s.setPort u n p).grp = s.grp := by
  cases u <;> rfl
@[simp] theorem State.setPort_mem (s : State) (u : FilterUnit) (n : BitVec 4) (p : Port) : (s.setPort u n p).mem = s.mem := by
  cases u <;> rfl
@[simp] theorem State.setPort_inputs (s : State) (u : FilterUnit) (n : BitVec 4) (p : Port) : (s.setPort u n p).inputs = s.inputs := by
  cases u <;> rfl
@[simp] theorem State.setPort_rdData (s : State) (u : FilterUnit) (n : BitVec 4) (p : Port) : (s.setPort u n p).rdData = s.rdData := by
  cases u <;> rfl
@[simp] theorem State.setPort_ldData (s : State) (u : FilterUnit) (n : BitVec 4) (p : Port) : (s.setPort u n p).ldData = s.ldData := by
  cases u <;> rfl
@[simp] theorem State.setPort_freeCount (s : State) (u : FilterUnit) (n : BitVec 4) (p : Port) : (s.setPort u n p).freeCount = s.freeCount := by
  cases u <;> rfl

/-! ### `restart` -/

@[simp] theorem State.restart_args (s : State) : s.restart.args = Args.zero := rfl
@[simp] theorem State.restart_result (s : State) : s.restart.result = 0 := rfl
@[simp] theorem State.restart_status (s : State) : s.restart.status = Status.zero := rfl
@[simp] theorem State.restart_latch (s : State) : s.restart.latch = Latch.idle := rfl
@[simp] theorem State.restart_aes (s : State) : s.restart.aes = State.reset.aes := rfl
@[simp] theorem State.restart_enc (s : State) : s.restart.enc = State.reset.enc := rfl
@[simp] theorem State.restart_dec (s : State) : s.restart.dec = State.reset.dec := rfl
@[simp] theorem State.restart_grp (s : State) : s.restart.grp = State.reset.grp := rfl
@[simp] theorem State.restart_outE (s : State) : s.restart.outE = mapBank Port.clear s.outE := rfl
@[simp] theorem State.restart_outD (s : State) : s.restart.outD = mapBank Port.clear s.outD := rfl
@[simp] theorem State.restart_outG (s : State) : s.restart.outG = mapBank Port.clear s.outG := rfl
@[simp] theorem State.restart_mem (s : State) : s.restart.mem = s.tornMemory := rfl
@[simp] theorem State.restart_inputs (s : State) : s.restart.inputs = s.inputs := rfl
@[simp] theorem State.restart_rdData (s : State) : s.restart.rdData = s.rdData := rfl
@[simp] theorem State.restart_ldData (s : State) : s.restart.ldData = s.ldData := rfl
@[simp] theorem State.restart_freeCount (s : State) : s.restart.freeCount = s.freeCount + 1 := rfl

/-! ### The fields of `STATUS` at the start and the ends of a command -/

@[simp] theorem Status.start_busy (s : Status) : s.start.busy = true := rfl
@[simp] theorem Status.start_done (s : Status) : s.start.done = false := rfl
@[simp] theorem Status.start_stalled (s : Status) : s.start.stalled = false := rfl
@[simp] theorem Status.start_overrun (s : Status) : s.start.overrun = s.overrun := rfl
@[simp] theorem Status.start_err (s : Status) : s.start.err = .ok := rfl
@[simp] theorem Status.start_errArg (s : Status) : s.start.errArg = .nothing := rfl
@[simp] theorem Status.finish_busy (s : Status) : s.finish.busy = false := rfl
@[simp] theorem Status.finish_done (s : Status) : s.finish.done = true := rfl
@[simp] theorem Status.finish_stalled (s : Status) : s.finish.stalled = s.stalled := rfl
@[simp] theorem Status.finish_overrun (s : Status) : s.finish.overrun = s.overrun := rfl
@[simp] theorem Status.finish_err (s : Status) : s.finish.err = s.err := rfl
@[simp] theorem Status.finish_errArg (s : Status) : s.finish.errArg = s.errArg := rfl
@[simp] theorem Status.stall_busy (s : Status) : s.stall.busy = false := rfl
@[simp] theorem Status.stall_done (s : Status) : s.stall.done = true := rfl
@[simp] theorem Status.stall_stalled (s : Status) : s.stall.stalled = true := rfl
@[simp] theorem Status.stall_overrun (s : Status) : s.stall.overrun = s.overrun := rfl
@[simp] theorem Status.stall_err (s : Status) : s.stall.err = s.err := rfl
@[simp] theorem Status.stall_errArg (s : Status) : s.stall.errArg = s.errArg := rfl
@[simp] theorem Status.fail_busy (s : Status) (c : ErrorCode) (a : ArgIndex) : (s.fail c a).busy = false := rfl
@[simp] theorem Status.fail_done (s : Status) (c : ErrorCode) (a : ArgIndex) : (s.fail c a).done = true := rfl
@[simp] theorem Status.fail_stalled (s : Status) (c : ErrorCode) (a : ArgIndex) : (s.fail c a).stalled = s.stalled := rfl
@[simp] theorem Status.fail_overrun (s : Status) (c : ErrorCode) (a : ArgIndex) : (s.fail c a).overrun = s.overrun := rfl
@[simp] theorem Status.fail_err (s : Status) (c : ErrorCode) (a : ArgIndex) : (s.fail c a).err = c := rfl
@[simp] theorem Status.fail_errArg (s : Status) (c : ErrorCode) (a : ArgIndex) : (s.fail c a).errArg = a := rfl

end Sys2Proof.Machine
end

