-- ==== Sys2Proof/Laws/Buffers.lean ====
section
/-! SUPPORT. Buffers of fixed length, and the banks of contexts, instances and ports. -/

namespace Sys2Proof.Machine

variable {α : Type} {n : Nat}

@[simp] theorem setEntry_toList (v : Vector α n) (i : Nat) (a : α) :
    (setEntry v i a).toList = v.toList.set i a := by
  simp [setEntry, Vector.toList]

theorem entry_of_le (v : Vector α n) (i : Nat) (d : α) (h : n ≤ i) : entry v i d = d := by
  simp [entry, List.getD_eq_getElem?_getD, h]

theorem entry_setEntry_same (v : Vector α n) (i : Nat) (a d : α) (h : i < n) :
    entry (setEntry v i a) i d = a := by
  simp [entry, List.getD_eq_getElem?_getD, h]

theorem entry_setEntry_other (v : Vector α n) (i j : Nat) (a d : α) (h : i ≠ j) :
    entry (setEntry v i a) j d = entry v j d := by
  simp [entry, List.getD_eq_getElem?_getD, h]

theorem entry_setEntry (v : Vector α n) (i j : Nat) (a d : α) :
    entry (setEntry v i a) j d = if i = j ∧ i < n then a else entry v j d := by
  by_cases h : i = j
  · subst h
    by_cases hn : i < n
    · simp [entry_setEntry_same, hn]
    · simp [hn, entry_of_le _ _ _ (Nat.le_of_not_lt hn)]
  · simp [h, entry_setEntry_other _ _ _ _ _ h]

@[simp] theorem entry_replicate (i : Nat) (a : α) : entry (Vector.replicate n a) i a = a := by
  simp only [entry, Vector.toList_replicate, List.getD_eq_getElem?_getD, List.getElem?_replicate]
  split <;> rfl

theorem fillBuffer_toList (l : List α) (d : α) :
    (fillBuffer n l d).toList = l.take n ++ List.replicate (n - l.length) d := rfl

/-- A filled buffer starts with the list and goes on with the filler. -/
theorem entry_fillBuffer (l : List α) (d : α) (i : Nat) (h : l.length ≤ n) :
    entry (fillBuffer n l d) i d = l.getD i d := by
  simp only [entry, fillBuffer_toList, List.take_of_length_le h, List.getD_eq_getElem?_getD]
  by_cases hi : i < l.length
  · rw [List.getElem?_append_left hi]
  · rw [List.getElem?_append_right (Nat.le_of_not_lt hi), List.getElem?_replicate,
      List.getElem?_eq_none (Nat.le_of_not_lt hi)]
    split <;> rfl

@[simp] theorem mapBank_toList (f : α → α) (v : Vector α n) : (mapBank f v).toList = v.toList.map f := rfl

/-- What is in a bank after one entry is replaced. -/
theorem mem_setEntry {v : Vector α n} {i : Nat} {a x : α} (h : x ∈ (setEntry v i a).toList) :
    x = a ∨ x ∈ v.toList := by
  rw [setEntry_toList] at h
  exact (List.mem_or_eq_of_mem_set h).symm

/-- The entry of a bank is one of its elements, or the default past its end. -/
theorem entry_mem_or (v : Vector α n) (i : Nat) (d : α) : entry v i d ∈ v.toList ∨ entry v i d = d := by
  unfold entry
  rw [List.getD_eq_getElem?_getD]
  by_cases h : i < v.toList.length
  · left
    rw [List.getElem?_eq_getElem h]
    exact List.getElem_mem h
  · right
    rw [List.getElem?_eq_none (Nat.le_of_not_lt h)]
    rfl

theorem State.aesCtx_setAesCtx (s : State) (i : BitVec 4) (c : AesCtx) (h : i.toNat < Config.params.nAes) :
    (s.setAesCtx i c).aesCtx i = c := entry_setEntry_same _ _ _ _ h

theorem State.encoder_setEncoder (s : State) (i : BitVec 4) (e : Encoder) (h : i.toNat < Config.params.nBenc) :
    (s.setEncoder i e).encoder i = e := entry_setEntry_same _ _ _ _ h

theorem State.decoder_setDecoder (s : State) (i : BitVec 4) (d : Decoder) (h : i.toNat < Config.params.nBdec) :
    (s.setDecoder i d).decoder i = d := entry_setEntry_same _ _ _ _ h

theorem State.grouper_setGrouper (s : State) (i : BitVec 4) (g : Grouper) (h : i.toNat < Config.params.nGrp) :
    (s.setGrouper i g).grouper i = g := entry_setEntry_same _ _ _ _ h

theorem State.portE_setPortE (s : State) (i : BitVec 4) (p : Port) (h : i.toNat < Config.params.nBenc) :
    (s.setPortE i p).portE i = p := entry_setEntry_same _ _ _ _ h

theorem State.portD_setPortD (s : State) (i : BitVec 4) (p : Port) (h : i.toNat < Config.params.nBdec) :
    (s.setPortD i p).portD i = p := entry_setEntry_same _ _ _ _ h

theorem State.portG_setPortG (s : State) (i : BitVec 4) (p : Port) (h : i.toNat < Config.params.nGrp) :
    (s.setPortG i p).portG i = p := entry_setEntry_same _ _ _ _ h

end Sys2Proof.Machine
end

