-- ==== Sys2Proof/Laws/Memory.lean ====
section
/-! SUPPORT. The laws of memory: a read after a write, what a write leaves alone, and that every
operation keeps the canonical form and the bound on addresses. -/

namespace Sys2Proof.Machine

/-! ### One byte -/

theorem Memory.read_write_other (m : Memory) (a b : Nat) (v : Byte) (h : b ≠ a) :
    (m.write a v).read b = m.read b := by
  induction m with
  | nil => unfold Memory.write; split <;> simp [Memory.read, h]
  | cons c m ih =>
    obtain ⟨d, w⟩ := c
    unfold Memory.write
    split
    · split <;> simp [Memory.read, h]
    · split
      · rename_i had
        subst had
        split <;> simp [Memory.read, h]
      · simp [Memory.read, ih]

/-- An address below every listed one reads as the unlisted byte. -/
theorem Memory.read_of_lt (m : Memory) (a : Nat) (h : ∀ c ∈ m, a < c.1) : m.read a = unlistedByte := by
  induction m with
  | nil => rfl
  | cons c m ih =>
    have := h c (by simp)
    simp only [Memory.read]
    rw [if_neg (by omega)]
    exact ih (fun d hd => h d (by simp [hd]))

theorem Memory.wf_tail {c : Host.Cell} {m : Memory} (h : Memory.Wf (c :: m)) : Memory.Wf m :=
  ⟨h.1.tail, fun d hd => h.2 d (by simp [hd])⟩

theorem Memory.read_write_same (m : Memory) (a : Nat) (v : Byte) (h : m.Wf) : (m.write a v).read a = v := by
  induction m with
  | nil => unfold Memory.write; split <;> simp_all [Memory.read]
  | cons c m ih =>
    obtain ⟨d, w⟩ := c
    have hlt : ∀ x ∈ m, d < x.1 := (List.pairwise_cons.mp h.1).1
    unfold Memory.write
    split
    · rename_i had
      split
      · rename_i hv
        rw [hv]
        refine Memory.read_of_lt _ _ (fun x hx => ?_)
        rcases List.mem_cons.mp hx with rfl | hx
        · exact had
        · exact Nat.lt_trans had (hlt x hx)
      · simp [Memory.read]
    · split
      · rename_i had
        subst had
        split
        · rename_i hv
          rw [hv]
          exact Memory.read_of_lt _ _ hlt
        · simp [Memory.read]
      · rename_i h1 h2
        simp only [Memory.read]
        rw [if_neg h2]
        exact ih (Memory.wf_tail h)

theorem Memory.read_write (m : Memory) (a b : Nat) (v : Byte) (h : m.Wf) :
    (m.write a v).read b = if b = a then v else m.read b := by
  split
  · rename_i hb
    subst hb
    exact Memory.read_write_same m b v h
  · exact Memory.read_write_other m a b v ‹_›

/-- The addresses a write may list. -/
theorem Memory.mem_write {m : Memory} {a : Nat} {v : Byte} {c : Host.Cell} (h : c ∈ m.write a v) :
    c ∈ m ∨ (c = (a, v) ∧ v ≠ unlistedByte) := by
  induction m with
  | nil => unfold Memory.write at h; split at h <;> simp_all
  | cons d m ih =>
    obtain ⟨b, w⟩ := d
    unfold Memory.write at h
    split at h
    · split at h
      · exact .inl h
      · rcases List.mem_cons.mp h with h | h
        · exact .inr ⟨h, ‹_›⟩
        · exact .inl h
    · split at h
      · split at h
        · exact .inl (by simp [h])
        · rcases List.mem_cons.mp h with h | h
          · exact .inr ⟨h, ‹_›⟩
          · exact .inl (by simp [h])
      · rcases List.mem_cons.mp h with h | h
        · exact .inl (by simp [h])
        · rcases ih h with h | h
          · exact .inl (by simp [h])
          · exact .inr h

/-- A write keeps the canonical form. -/
theorem Memory.write_wf (m : Memory) (a : Nat) (v : Byte) (h : m.Wf) : (m.write a v).Wf := by
  induction m with
  | nil =>
    unfold Memory.write
    split
    · exact h
    · exact ⟨by simp, by simpa using ‹¬v = unlistedByte›⟩
  | cons d m ih =>
    obtain ⟨b, w⟩ := d
    obtain ⟨hlt, hp⟩ := List.pairwise_cons.mp h.1
    unfold Memory.write
    split
    · rename_i hab
      split
      · exact h
      · refine ⟨List.pairwise_cons.mpr ⟨fun x hx => ?_, h.1⟩, fun x hx => ?_⟩
        · rcases List.mem_cons.mp hx with rfl | hx
          · exact hab
          · exact Nat.lt_trans hab (hlt x hx)
        · rcases List.mem_cons.mp hx with rfl | hx
          · assumption
          · exact h.2 x hx
    · split
      · rename_i hab
        subst hab
        split
        · exact Memory.wf_tail h
        · refine ⟨List.pairwise_cons.mpr ⟨hlt, hp⟩, fun x hx => ?_⟩
          rcases List.mem_cons.mp hx with rfl | hx
          · assumption
          · exact h.2 x (by simp [hx])
      · rename_i h1 h2
        obtain ⟨ihp, ihv⟩ := ih (Memory.wf_tail h)
        refine ⟨List.pairwise_cons.mpr ⟨fun x hx => ?_, ihp⟩, fun x hx => ?_⟩
        · rcases Memory.mem_write hx with hx | ⟨rfl, -⟩
          · exact hlt x hx
          · show b < a
            omega
        · rcases List.mem_cons.mp hx with rfl | hx
          · exact h.2 _ (by simp)
          · exact ihv x hx

/-! ### Byte strings (R61) -/

@[simp] theorem Memory.readN_length (m : Memory) (a n : Nat) : (m.readN a n).length = n := by
  simp [Memory.readN]

theorem Memory.readN_getElem? (m : Memory) (a n i : Nat) (h : i < n) :
    (m.readN a n)[i]? = some (m.read (a + i)) := by
  simp [Memory.readN, h]

theorem Memory.readN_getD (m : Memory) (a n i : Nat) (d : Byte) (h : i < n) :
    (m.readN a n).getD i d = m.read (a + i) := by
  simp [List.getD_eq_getElem?_getD, Memory.readN_getElem? m a n i h]

theorem Memory.writeN_wf (m : Memory) (a : Nat) (v : List Byte) (h : m.Wf) : (m.writeN a v).Wf := by
  induction v generalizing m a with
  | nil => exact h
  | cons x xs ih => exact ih _ _ (Memory.write_wf m a x h)

theorem Memory.read_writeN_outside (m : Memory) (a b : Nat) (v : List Byte) (h : b < a ∨ a + v.length ≤ b) :
    (m.writeN a v).read b = m.read b := by
  induction v generalizing m a with
  | nil => rfl
  | cons x xs ih =>
    simp only [List.length_cons] at h
    rw [Memory.writeN, ih _ _ (by omega), Memory.read_write_other _ _ _ _ (by omega)]

theorem Memory.read_writeN_inside (m : Memory) (a i : Nat) (v : List Byte) (hm : m.Wf) (h : i < v.length) :
    (m.writeN a v).read (a + i) = v.getD i 0 := by
  induction v generalizing m a i with
  | nil => simp at h
  | cons x xs ih =>
    cases i with
    | zero =>
      rw [Memory.writeN, Memory.read_writeN_outside _ _ _ _ (by omega)]
      simpa using Memory.read_write_same m a x hm
    | succ i =>
      simp only [List.length_cons] at h
      have := ih (m.write a x) (a + 1) i (Memory.write_wf m a x hm) (by omega)
      rw [show a + (i + 1) = a + 1 + i by omega, Memory.writeN, this]
      simp

/-- `MemWrite` then one read (R61): inside the range the written byte, elsewhere the old one. -/
theorem Memory.read_writeN (m : Memory) (a b : Nat) (v : List Byte) (hm : m.Wf) :
    (m.writeN a v).read b = if a ≤ b ∧ b < a + v.length then v.getD (b - a) 0 else m.read b := by
  split
  · rename_i h
    have := Memory.read_writeN_inside m a (b - a) v hm (by omega)
    rwa [show a + (b - a) = b by omega] at this
  · exact Memory.read_writeN_outside m a b v (by omega)

theorem Memory.mem_writeN {m : Memory} {a : Nat} {v : List Byte} {c : Host.Cell} (h : c ∈ m.writeN a v) :
    c ∈ m ∨ (a ≤ c.1 ∧ c.1 < a + v.length) := by
  induction v generalizing m a with
  | nil => exact .inl h
  | cons x xs ih =>
    rcases ih h with h | h
    · rcases Memory.mem_write h with h | ⟨rfl, -⟩
      · exact .inl h
      · right; simp
    · right
      simp only [List.length_cons]
      omega

/-! ### The memory of a reset (R301) -/

theorem tearRange_wf (k : Nat) (m : Memory) (r : AddrRange) (h : m.Wf) : (tearRange k m r).Wf := by
  unfold tearRange
  induction List.range r.2 generalizing m with
  | nil => exact h
  | cons i is ih => exact ih _ (Memory.write_wf _ _ _ h)

theorem tearRange_read_outside (k : Nat) (m : Memory) (r : AddrRange) (a : Nat)
    (h : ¬(r.1 ≤ a ∧ a < r.1 + r.2)) : (tearRange k m r).read a = m.read a := by
  unfold tearRange
  have hl : ∀ i ∈ List.range r.2, a ≠ r.1 + i := by
    intro i hi
    have := List.mem_range.mp hi
    omega
  revert hl
  induction List.range r.2 generalizing m with
  | nil => intro _; rfl
  | cons i is ih =>
    intro hl
    rw [List.foldl_cons, ih _ (fun j hj => hl j (by simp [hj])),
      Memory.read_write_other _ _ _ _ (hl i (by simp))]

theorem mem_tearRange {k : Nat} {m : Memory} {r : AddrRange} {c : Host.Cell} (h : c ∈ tearRange k m r) :
    c ∈ m ∨ (r.1 ≤ c.1 ∧ c.1 < r.1 + r.2) := by
  unfold tearRange at h
  have hl : ∀ i ∈ List.range r.2, i < r.2 := fun i hi => List.mem_range.mp hi
  revert h hl
  induction List.range r.2 generalizing m with
  | nil => intro h _; exact .inl h
  | cons i is ih =>
    intro h hl
    rcases ih (m := m.write (r.1 + i) (Config.tornByte k (r.1 + i))) h (fun j hj => hl j (by simp [hj])) with h | h
    · rcases Memory.mem_write h with h | ⟨rfl, -⟩
      · exact .inl h
      · right
        have := hl i (by simp)
        constructor <;> simp_all
    · exact .inr h

end Sys2Proof.Machine
end

