-- ==== Sys2Proof/Laws/Commands.lean ====
section
/-! SUPPORT. The shared operations of a command, each with one lemma that says all it can do: the checks
and the guard, the ends, and the bulk loop; the words of command statements. -/

namespace Sys2Proof.Machine

/-! ### Checks -/

theorem firstFailure_none_iff (cs : List Check) : firstFailure cs = none ↔ ∀ c ∈ cs, c.fails = false := by
  induction cs with
  | nil => simp [firstFailure]
  | cons c cs ih =>
    unfold firstFailure
    cases hc : c.fails <;> simp [hc, ih]

theorem firstFailure_mem {cs : List Check} {code : ErrorCode} {arg : ArgIndex}
    (h : firstFailure cs = some (code, arg)) : ∃ c ∈ cs, c.fails = true ∧ c.code = code ∧ c.arg = arg := by
  induction cs with
  | nil => simp [firstFailure] at h
  | cons c cs ih =>
    unfold firstFailure at h
    cases hc : c.fails
    · obtain ⟨d, hd, h'⟩ := ih (by simpa [hc] using h)
      exact ⟨d, by simp [hd], h'⟩
    · simp only [hc, if_true, Option.some.injEq, Prod.mk.injEq] at h
      exact ⟨c, by simp, hc, h.1, h.2⟩

@[simp] theorem rangeCheck_code (a n : Nat) (g : ArgIndex) : (rangeCheck a n g).code = .badAddress := rfl
@[simp] theorem rangeCheck_arg (a n : Nat) (g : ArgIndex) : (rangeCheck a n g).arg = g := rfl

@[simp] theorem rangeCheck_passes (a n : Nat) (g : ArgIndex) :
    (rangeCheck a n g).fails = false ↔ n = 0 ∨ a + n ≤ memSize := by
  simp only [rangeCheck, Bool.not_eq_false', decide_eq_true_eq]

/-- All that a guarded command can do: one of its checks fails and is raised, or all pass and it has its
effect. -/
theorem State.guarded_cases {s t : State} {cs : List Check} {effect : State}
    (h : s.guarded cs effect = .next t) :
    (∃ c ∈ cs, c.fails = true ∧ firstFailure cs = some (c.code, c.arg) ∧ t = s.raise c.code c.arg) ∨
      ((∀ c ∈ cs, c.fails = false) ∧ t = effect) := by
  unfold State.guarded at h
  split at h
  · rename_i code arg hf
    obtain ⟨c, hc, hfail, rfl, rfl⟩ := firstFailure_mem hf
    exact .inl ⟨c, hc, hfail, hf, by simpa using h.symm⟩
  · rename_i hf
    exact .inr ⟨(firstFailure_none_iff cs).mp hf, by simpa using h.symm⟩

/-- A guarded command always answers a next state. -/
theorem State.guarded_next (s : State) (cs : List Check) (effect : State) :
    ∃ t, s.guarded cs effect = .next t := by
  unfold State.guarded
  split <;> exact ⟨_, rfl⟩

theorem State.guarded_of_pass {s effect : State} {cs : List Check} (h : ∀ c ∈ cs, c.fails = false) :
    s.guarded cs effect = .next effect := by
  unfold State.guarded
  rw [(firstFailure_none_iff cs).mpr h]

theorem State.guarded_of_failure {s effect : State} {cs : List Check} {code : ErrorCode} {arg : ArgIndex}
    (h : firstFailure cs = some (code, arg)) : s.guarded cs effect = .next (s.raise code arg) := by
  unfold State.guarded
  rw [h]

/-! ### AES blocks -/

@[simp] theorem bytes32_length (w : Word) : (bytes32 w).length = 4 := rfl

@[simp] theorem storeColumns_length (s : Columns) : (storeColumns s).length = 16 := rfl

@[simp] theorem cipher_length (c : AesCtx) (x : List Byte) : (cipher c x).length = 16 := by
  unfold cipher
  split <;> rfl

@[simp] theorem xorBytes_length (x y : List Byte) : (xorBytes x y).length = min x.length y.length := by
  simp [xorBytes]

@[simp] theorem zeroBlock_length : zeroBlock.length = 16 := rfl

@[simp] theorem beBytes_length (n v : Nat) : (beBytes n v).length = n := by simp [beBytes]

/-- The incremented counter is again 16 bytes, for either width. -/
theorem ctrIncWidth_length (c : Nat) (p : List Byte) (hc : c ≤ 16) (hp : p.length = 16) :
    (ctrIncWidth c p).length = 16 := by
  simp [ctrIncWidth, hp]
  omega

theorem ctrIncBytes_cases : Config.params.ctrIncBytes = 16 ∨ Config.params.ctrIncBytes = 8 := by
  unfold Config.params
  simp only
  split <;> simp

@[simp] theorem ctrInc_length (p : List Byte) (hp : p.length = 16) : (ctrInc p).length = 16 := by
  refine ctrIncWidth_length _ p ?_ hp
  rcases ctrIncBytes_cases with h | h <;> omega

theorem scheduleBytes_length (rk : List Word) (n : Nat) : (scheduleBytes rk n).length = 4 * min n rk.length := by
  unfold scheduleBytes
  rw [List.length_flatMap]
  simp [Nat.mul_comm]

/-! ### The bulk loop -/

/-- One pass changes memory and the block counter only. -/
theorem bulkBlock_frame (c : AesCtx) (f : BulkFlags) (s : State) :
    bulkBlock c f s = (s.setMem (bulkBlock c f s).mem).setK (s.latch.k + 1) := rfl

/-- So does the loop. -/
theorem bulkLoop_frame (c : AesCtx) (f : BulkFlags) (n : Nat) (s : State) :
    bulkLoop c f n s = (s.setMem (bulkLoop c f n s).mem).setK (s.latch.k + n) := by
  induction n generalizing s with
  | zero => rfl
  | succ n ih =>
    rw [bulkLoop, ih (bulkBlock c f s), bulkBlock_frame c f s]
    simp only [State.setK_latch, State.setMem_latch]
    rw [show s.latch.k + 1 + n = s.latch.k + (n + 1) by omega]
    rfl

/-- The loop, its last pass taken off. -/
theorem bulkLoop_succ (c : AesCtx) (f : BulkFlags) (n : Nat) (s : State) :
    bulkLoop c f (n + 1) s = bulkBlock c f (bulkLoop c f n s) := by
  induction n generalizing s with
  | zero => rfl
  | succ n ih => rw [bulkLoop, ih, ← bulkLoop]

/-- The block a pass writes out is 16 bytes. -/
theorem bulkOutput_length (c : AesCtx) (y : Bool) (p x : List Byte) (hx : x.length = 16) :
    (if y then cipher c (xorBytes p x) else xorBytes (cipher c p) x).length = 16 := by
  split <;> simp [hx]

/-! ### Command statements -/

theorem Statement.ofInstr_flags (i : Instr) : (Statement.ofInstr i).flags = i.flags := by
  cases i with
  | bencInit _ b a p f _ => simp only [ofInstr, Statement.flags, Mnemonic.flags, Instr.flags]; revert b a p f; decide
  | bdecInit _ b l => simp only [ofInstr, Statement.flags, Mnemonic.flags, Instr.flags]; revert b l; decide
  | _ => rfl

/-- Every command has a statement that assembles to its word (R92). -/
theorem Statement.ofInstr_word (i : Instr) : (Statement.ofInstr i).word = encode i := by
  rw [Statement.word, Statement.ofInstr_flags]
  cases i <;> rfl

end Sys2Proof.Machine
end

