-- ==== Sys2Proof/Laws/PerInstr.lean ====
section
/-! SUPPORT. Per command, as text: the fields of the word that `encode` writes are the fields the
command has (spec/30_encoding.md R80 to R87). -/

namespace Sys2Proof.Laws.EncodedFields

/-- The five fields of the command's word are the ones its constructor names, `RSVD` is 0, and no bit is
set in `FLAGS` or `PARAM8` that the opcode does not define. -/
def Statement (i : Instr) : Prop :=
  opcField (encode i) = i.opcode.code ∧ instField (encode i) = i.inst ∧ rsvdField (encode i) = 0 ∧
    flagsField (encode i) = i.flags ∧ param8Field (encode i) = i.param8 ∧
    i.flags &&& ~~~ i.opcode.definedFlags = 0 ∧ (i.opcode.usesParam8 = false → i.param8 = 0)

/-- The fields of a word put together from fields. -/
theorem fields_of_encodeFields (p f : BitVec 8) (n : BitVec 4) (c : BitVec 8) :
    opcField (encodeFields p f n c) = c ∧ instField (encodeFields p f n c) = n ∧
      rsvdField (encodeFields p f n c) = 0 ∧ flagsField (encodeFields p f n c) = f ∧
      param8Field (encodeFields p f n c) = p := by
  simp only [opcField, instField, rsvdField, flagsField, param8Field, encodeFields]
  refine ⟨?_, ?_, ?_, ?_, ?_⟩ <;>
  · apply BitVec.eq_of_getLsbD_eq
    intro i hi
    rw [BitVec.getLsbD_extractLsb']
    simp only [BitVec.getLsbD_append]
    interval_cases i <;> simp

/-- The first five parts hold of every command. -/
theorem of_flags (i : Instr) (h : i.flags &&& ~~~ i.opcode.definedFlags = 0)
    (hp : i.opcode.usesParam8 = false → i.param8 = 0) : Statement i := by
  obtain ⟨h1, h2, h3, h4, h5⟩ := fields_of_encodeFields i.param8 i.flags i.inst i.opcode.code
  exact ⟨h1, h2, h3, h4, h5, h, hp⟩

theorem aesSetKey (n : BitVec 4) (d : Direction) : Statement (.aesSetKey n d) :=
  of_flags _ (by cases d <;> simp only [Instr.flags, Instr.opcode] <;> decide) (fun _ => rfl)

theorem aesProcessBlock (n : BitVec 4) (x : Bool) : Statement (.aesProcessBlock n x) :=
  of_flags _ (by cases x <;> simp only [Instr.flags, Instr.opcode] <;> decide) (fun _ => rfl)

theorem aesProcessBlocks (n : BitVec 4) (x y d c : Bool) : Statement (.aesProcessBlocks n x y d c) :=
  of_flags _ (by cases x <;> cases y <;> cases d <;> cases c <;> simp only [Instr.flags, Instr.opcode] <;> decide) (fun _ => rfl)

theorem aesReadRk (n : BitVec 4) : Statement (.aesReadRk n) := of_flags _ (by simp only [Instr.flags, Instr.opcode]; decide) (fun _ => rfl)

theorem aesClearKey (n : BitVec 4) : Statement (.aesClearKey n) := of_flags _ (by simp only [Instr.flags, Instr.opcode]; decide) (fun _ => rfl)

theorem bencInit (n : BitVec 4) (b : BitVec 3) (a p f : Bool) (q : Byte) : Statement (.bencInit n b a p f q) :=
  of_flags _ (by
    simp only [Instr.flags, Instr.opcode]
    revert b a p f
    decide) (fun h => by cases h)

theorem bencPut (n : BitVec 4) (k : Bool) (m : Byte) : Statement (.bencPut n k m) :=
  of_flags _ (by cases k <;> simp only [Instr.flags, Instr.opcode] <;> decide) (fun h => by cases h)

theorem bdecBuildLookup (c : Bool) : Statement (.bdecBuildLookup c) :=
  of_flags _ (by cases c <;> simp only [Instr.flags, Instr.opcode] <;> decide) (fun _ => rfl)

theorem bdecInit (n : BitVec 4) (b : BitVec 3) (l : Bool) : Statement (.bdecInit n b l) :=
  of_flags _ (by
    simp only [Instr.flags, Instr.opcode]
    revert b l
    decide) (fun _ => rfl)

theorem bdecPut (n : BitVec 4) (k : Bool) (m : Byte) : Statement (.bdecPut n k m) :=
  of_flags _ (by cases k <;> simp only [Instr.flags, Instr.opcode] <;> decide) (fun h => by cases h)

theorem grpInit (n : BitVec 4) (s t : Bool) : Statement (.grpInit n s t) :=
  of_flags _ (by cases s <;> cases t <;> simp only [Instr.flags, Instr.opcode] <;> decide) (fun _ => rfl)

theorem grpPut (n : BitVec 4) (k : Bool) (m : Byte) : Statement (.grpPut n k m) :=
  of_flags _ (by cases k <;> simp only [Instr.flags, Instr.opcode] <;> decide) (fun h => by cases h)

end Sys2Proof.Laws.EncodedFields
end

