-- ==== Sys2Proof/Laws/Put.lean ====
section
/-! SUPPORT. The handshake and the put skeleton: what an emission can do, and how a property that each
part of a put keeps is kept by the whole. -/

namespace Sys2Proof.Machine

/-! ### Emissions -/

@[simp] theorem unfinished_ne_go (blocking : Bool) : unfinished blocking ≠ .go := by cases blocking <;> simp [unfinished]

@[simp] theorem unfinished_eq_stall (blocking : Bool) : unfinished blocking = .stall ↔ blocking = false := by
  cases blocking <;> simp [unfinished]

@[simp] theorem unfinished_eq_wait (blocking : Bool) : unfinished blocking = .wait ↔ blocking = true := by
  cases blocking <;> simp [unfinished]

/-- The events that one offer of an emission leaves, and the message end if it completes it, are legal. -/
theorem completed_offer_ok (h : List Event) (bytes : List Byte) (lvl : Nat) (blocking : Bool) (t : Nat) (hlvl : lvl ≤ 254) :
    ∃ es, completed (h ++ [.offer bytes lvl blocking (takenOf t bytes)]) lvl = h ++ es ∧ ∀ e ∈ es, e.Ok := by
  have hok : (Event.offer bytes lvl blocking (takenOf t bytes)).Ok := by simp [Event.Ok, takenOf, hlvl]
  unfold completed
  split
  · refine ⟨[_, .ended lvl], by simp; rfl, ?_⟩
    intro e he
    simp only [List.mem_cons, List.not_mem_nil, or_false] at he
    rcases he with rfl | rfl
    · exact hok
    · exact ⟨‹_›, hlvl⟩
  · exact ⟨[_], rfl, by simpa using hok⟩

/-- All that an emission can do: the offset moves forward inside the emission and reaches its end
exactly when the emission is complete; the history grows by legal events; answers are used from the
front, and free ones are drawn only when none is left; only a non-blocking emission stalls, and only a
blocking one waits. -/
theorem emitLoop_spec (d : List Byte) (lvl : Nat) (blocking : Bool) (sink : Nat → Nat) (drawn : Nat) (ts : List Nat)
    (h : List Event) (off : Nat) (hoff : off ≤ d.length) (hlvl : lvl ≤ 254) :
    let res := emitLoop d lvl blocking sink drawn ts h off
    off ≤ res.2.2 ∧ res.2.2 ≤ d.length ∧ (res.1 = .go → res.2.2 = d.length) ∧
      (∃ es, res.2.1.history = h ++ es ∧ ∀ e ∈ es, e.Ok) ∧ (∃ used, ts = used ++ res.2.1.answers) ∧
      (res.1 = .stall → blocking = false) ∧ (res.1 = .wait → blocking = true ∧ res.2.1.answers = []) ∧
      (res.2.1.drawn = drawn ∨ res.2.1.drawn = drawn + 1 ∧ res.2.1.answers = []) := by
  induction ts generalizing h off with
  | nil =>
    have hk : takenOf (sink drawn) (d.drop off) ≤ d.length - off := by simp [takenOf]
    simp only [emitLoop]
    split
    · rename_i hgo
      exact ⟨by simp, by simp [hgo], fun _ => hgo, completed_offer_ok _ _ _ _ _ hlvl, ⟨[], by simp⟩, by simp, by simp, by simp⟩
    · refine ⟨by simp, by simp only; omega, by simp, ⟨[_], rfl, ?_⟩, ⟨[], by simp⟩, by simp, by simp, by simp⟩
      simp [Event.Ok, takenOf, hlvl]
  | cons t ts ih =>
    have hk : takenOf t (d.drop off) ≤ d.length - off := by simp [takenOf]
    simp only [emitLoop]
    split
    · rename_i hgo
      exact ⟨by simp, by simp [hgo], fun _ => hgo, completed_offer_ok _ _ _ _ _ hlvl, ⟨[t], by simp⟩, by simp, by simp, by simp⟩
    · split
      · obtain ⟨h1, h2, h3, ⟨es, h4, h4'⟩, ⟨used, h5⟩, h6⟩ :=
          ih (h ++ [.offer (d.drop off) lvl blocking (takenOf t (d.drop off))])
            (off + takenOf t (d.drop off)) (by omega)
        refine ⟨by omega, h2, h3, ⟨.offer (d.drop off) lvl blocking (takenOf t (d.drop off)) :: es, by simp [h4], ?_⟩,
          ⟨t :: used, by rw [List.cons_append, ← h5]⟩, h6⟩
        intro e he
        rcases List.mem_cons.mp he with rfl | he
        · simp [Event.Ok, takenOf, hlvl]
        · exact h4' e he
      · refine ⟨by simp, by simp only; omega, by simp, ⟨[_], rfl, ?_⟩, ⟨[t], by simp⟩, ?_, by simp, by simp⟩
        · simp [Event.Ok, takenOf, hlvl]
        · intro _
          cases blocking <;> simp_all

/-- An answer that covers the rest of an emission completes it (R192). -/
theorem emitLoop_of_takesAll (d : List Byte) (lvl : Nat) (blocking : Bool) (sink : Nat → Nat) (drawn t : Nat)
    (ts : List Nat) (h : List Event) (off : Nat) (hoff : off ≤ d.length) (ht : d.length - off ≤ t) :
    emitLoop d lvl blocking sink drawn (t :: ts) h off =
      (.go, ⟨completed (h ++ [.offer (d.drop off) lvl blocking (d.length - off)]) lvl, ts, drawn⟩, d.length) := by
  have hk : takenOf t (d.drop off) = d.length - off := by simp [takenOf, ht]
  simp only [emitLoop, hk]
  rw [if_pos (by omega), show off + (d.length - off) = d.length by omega]

/-- A non-blocking emission makes exactly one offer, and never waits (R194, R309). -/
theorem emitLoop_nonblocking (d : List Byte) (lvl : Nat) (sink : Nat → Nat) (drawn : Nat) (ts : List Nat)
    (h : List Event) (off : Nat) :
    (emitLoop d lvl false sink drawn ts h off).2.1.answers = ts.tail ∧ (emitLoop d lvl false sink drawn ts h off).1 ≠ .wait := by
  cases ts <;> simp only [emitLoop] <;> split <;> simp

/-! ### Data chunks (R252) -/

@[simp] theorem Grouper.count_zero (g : Grouper) : g.count 0 = g := by
  unfold Grouper.count
  split <;> rfl

theorem Grouper.count_count (g : Grouper) (a b : Nat) : (g.count a).count b = g.count (a + b) := by
  unfold Grouper.count
  split <;> simp_all [Nat.add_assoc]

/-- All that forwarding a chunk can do: some `k` of its bytes are taken and counted, all of them when it
goes on; the history grows by legal events; answers are used from the front, and free ones are drawn only
when none is left; only a non-blocking chunk stalls, and only a blocking one waits. -/
theorem forwardLoop_spec (j : PutJob) (drawn : Nat) (ts : List Nat) (h : List Event) (left : Nat) (g : Grouper) (pos : Nat) :
    let res := forwardLoop j drawn ts h left g pos
    ∃ k, k ≤ left ∧ res.2.pos = pos + k ∧ res.2.unit = g.count k ∧ (res.1 = .go → k = left) ∧
      (∃ es, res.2.port.history = h ++ es ∧ ∀ e ∈ es, e.Ok) ∧ (∃ used, ts = used ++ res.2.port.answers) ∧
      (res.1 = .stall → j.blocking = false) ∧ (res.1 = .wait → j.blocking = true ∧ res.2.port.answers = []) ∧
      (res.2.port.drawn = drawn ∨ res.2.port.drawn = drawn + 1 ∧ res.2.port.answers = []) := by
  induction ts generalizing h left g pos with
  | nil =>
    have hk : takenOf (j.sink drawn) (j.mem.readN (j.base + pos) left) ≤ left := by simp [takenOf]
    simp only [forwardLoop]
    split
    · rename_i hgo
      exact ⟨_, hk, rfl, rfl, fun _ => hgo, ⟨[_], rfl, by simp [Event.Ok, takenOf]⟩, ⟨[], by simp⟩, by simp, by simp, by simp⟩
    · exact ⟨_, hk, rfl, rfl, by simp, ⟨[_], rfl, by simp [Event.Ok, takenOf]⟩, ⟨[], by simp⟩, by simp, by simp, by simp⟩
  | cons t ts ih =>
    have hk : takenOf t (j.mem.readN (j.base + pos) left) ≤ left := by simp [takenOf]
    simp only [forwardLoop]
    split
    · rename_i hgo
      exact ⟨_, hk, rfl, rfl, fun _ => hgo, ⟨[_], rfl, by simp [Event.Ok, takenOf]⟩, ⟨[t], by simp⟩, by simp, by simp, by simp⟩
    · split
      · obtain ⟨k, h1, h2, h3, h4, ⟨es, h5, h5'⟩, ⟨used, h6⟩, h7⟩ :=
          ih (h ++ [.offer (j.mem.readN (j.base + pos) left) 0 j.blocking (takenOf t (j.mem.readN (j.base + pos) left))])
            (left - takenOf t (j.mem.readN (j.base + pos) left)) (g.count (takenOf t (j.mem.readN (j.base + pos) left)))
            (pos + takenOf t (j.mem.readN (j.base + pos) left))
        refine ⟨takenOf t (j.mem.readN (j.base + pos) left) + k, by omega, by omega, by rw [h3, Grouper.count_count],
          fun hg => by have := h4 hg; omega, ⟨_ :: es, by simp [h5]; rfl, ?_⟩, ⟨t :: used, by rw [List.cons_append, ← h6]⟩,
          h7⟩
        intro e he
        rcases List.mem_cons.mp he with rfl | he
        · simp [Event.Ok, takenOf]
        · exact h5' e he
      · refine ⟨_, hk, rfl, rfl, by simp, ⟨[_], rfl, by simp [Event.Ok, takenOf]⟩, ⟨[t], by simp⟩, fun _ => ?_, by simp, by simp⟩
        simpa using ‹¬j.blocking = true›

/-- A non-blocking chunk makes exactly one offer, and never waits (R252, R309). -/
theorem forwardLoop_nonblocking (j : PutJob) (drawn : Nat) (ts : List Nat) (h : List Event) (left : Nat) (g : Grouper)
    (pos : Nat) (hj : j.blocking = false) :
    (forwardLoop j drawn ts h left g pos).2.port.answers = ts.tail ∧ (forwardLoop j drawn ts h left g pos).1 ≠ .wait := by
  cases ts <;> simp only [forwardLoop] <;> split <;> simp [hj]

/-! ### Flushing the pending emission -/

variable {U : Type}

/-- All that flushing can do: the cursor stays, and the unit is completed exactly when the emission is. -/
theorem PutUnit.flush_spec (u : PutUnit U) (j : PutJob) (r : PutRun U) :
    let e := emit (u.pending r.unit) (u.pendMel r.unit) j.blocking j.sink r.port (u.pendOff r.unit)
    u.flush j r =
      (e.1, ⟨if e.1 = .go then u.complete (u.setPendOff r.unit e.2.2) else u.setPendOff r.unit e.2.2, e.2.1, r.pos⟩) := by
  intro e
  unfold PutUnit.flush
  rcases h : emit (u.pending r.unit) (u.pendMel r.unit) j.blocking j.sink r.port (u.pendOff r.unit) with ⟨f, p, off⟩
  simp only [e, h]
  cases f <;> simp

/-! ### The skeleton -/

/-- What each part of a put keeps, the whole keeps: `P` holds of the run while its unit is idle, between
the parts, and `Q` always. -/
theorem PutUnit.run_keeps (u : PutUnit U) (body : PutJob → PutRun U → Flow × PutRun U) (j : PutJob)
    {P Q : PutRun U → Prop} (hPQ : ∀ r, P r → Q r) (hQP : ∀ r, Q r → u.idle r.unit = true → P r)
    (hbody : ∀ r, P r → Q (body j r).2 ∧ ((body j r).1 = .go → P (body j r).2))
    (hend : ∀ r, P r → Q (u.messageEnd j r).2)
    (hflush : ∀ r, Q r → u.idle r.unit = false →
      Q (u.flush j r).2 ∧ ((u.flush j r).1 = .go → P (u.flush j r).2))
    (r : PutRun U) (h : Q r) : Q (u.run body j r).2 := by
  have hprocess : ∀ r, P r → Q (u.process body j r).2 := by
    intro r h
    unfold PutUnit.process
    obtain ⟨hq, hp⟩ := hbody r h
    rcases hbr : body j r with ⟨f, r'⟩
    rw [hbr] at hq hp
    cases f
    · exact hend _ (hp rfl)
    · exact hq
    · exact hq
  unfold PutUnit.run
  split
  · exact hprocess r (hQP r h ‹_›)
  · rename_i hi
    obtain ⟨hq, hp⟩ := hflush r h (by simpa using hi)
    rcases hfr : u.flush j r with ⟨f, r'⟩
    rw [hfr] at hq hp
    cases f
    · simp only
      split
      · exact hPQ _ (hp rfl)
      · exact hprocess _ (hp rfl)
    · exact hq
    · exact hq

end Sys2Proof.Machine
end

