-- ==== Sys2Proof/Laws/Units.lean ====
section
/-! SUPPORT. What the configuring commands put into a context or an instance is legal. -/

namespace Sys2Proof.Machine

/-- The context `AES_SET_KEY` writes is legal (R140, R30). -/
theorem keyedContext_inv (dir : Direction) (key : List Byte) (h : legalKeyLength key.length = true) :
    (keyedContext dir key).Inv where
  unkeyed := by simp [keyedContext]
  keyed _ := ⟨key, h, rfl⟩

/-- The block sizes of R210 and R235 are the same group of `lcm(8, b)` bits. -/
theorem blockSizes (b : Nat) (h1 : 1 ≤ b) (h7 : b ≤ 7) :
    encoderBlockSize b * b = decoderBlockSize b * 8 ∧ 1 ≤ encoderBlockSize b ∧ encoderBlockSize b ≤ 8 ∧
      1 ≤ decoderBlockSize b ∧ decoderBlockSize b ≤ 7 := by
  interval_cases b <;> decide

/-- The encoder `BENC_INIT` configures is legal (R211, R34 to R36). -/
theorem configuredEncoder_inv (b : Nat) (padEn : Bool) (padByte : Byte) (alphabet : List Byte)
    (h1 : 1 ≤ b) (h7 : b ≤ 7) (hl : alphabet.length = 2 ^ b) :
    (configuredEncoder b padEn padByte alphabet).Inv where
  unconfigured := by simp [configuredEncoder]
  bits _ := ⟨h1, h7, rfl, h1⟩
  alphabetTail j hj := by
    have h128 : 2 ^ b ≤ 2 ^ 7 := Nat.pow_le_pow_right (by decide) h7
    simp only [configuredEncoder] at hj ⊢
    rw [entry_fillBuffer _ _ _ (by omega), List.getD_eq_default _ _ (by omega)]
  noPad h := by simp_all [configuredEncoder]
  posLe := Nat.zero_le _
  idleCursor _ _ := (blockSizes b h1 h7).2.1
  wholeBytes _ := by simp [configuredEncoder, Encoder.empty]
  symbols _ j hj := by simp [configuredEncoder, Encoder.empty] at hj
  partialSymbol _ := by simp [configuredEncoder, Encoder.empty]
  unused _ j _ := by simp [configuredEncoder, Encoder.empty]
  idlePending _ := ⟨rfl, rfl, rfl⟩
  pending := by simp [configuredEncoder, Encoder.empty]
  pendingBlock h := by simp [configuredEncoder, Encoder.empty] at h

/-- The decoder `BDEC_INIT` configures is legal (R231, R39 to R41). -/
theorem configuredDecoder_inv (b : Nat) (lookup : List Byte) (h1 : 1 ≤ b) (h7 : b ≤ 7) :
    (configuredDecoder b lookup).Inv where
  unconfigured := by simp [configuredDecoder]
  bits _ := ⟨h1, h7, rfl⟩
  posLe := by simp [configuredDecoder, Decoder.empty]
  idleCursor _ _ := (blockSizes b h1 h7).2.2.2.1
  wholeSymbols _ := by simp [configuredDecoder, Decoder.empty]
  partialByte _ := by simp [configuredDecoder, Decoder.empty]
  unused _ j _ := by simp [configuredDecoder, Decoder.empty]
  idlePending _ := ⟨rfl, rfl, rfl⟩
  pending := by simp [configuredDecoder, Decoder.empty]
  pendingBlock h := by simp [configuredDecoder, Decoder.empty] at h

/-- The Grouper `GRP_INIT` configures is legal (R250, R43 to R45). -/
theorem configuredGrouper_inv (groupSize : Word) (sep term : List Byte) (hs : sep.length ≤ 255)
    (ht : term.length ≤ 255) : (configuredGrouper groupSize sep term).Inv where
  unconfigured := by simp [configuredGrouper]
  strings := ⟨hs, ht⟩
  sepTail j hj := by
    simp only [configuredGrouper] at hj ⊢
    rw [entry_fillBuffer _ _ _ hs, List.getD_eq_default _ _ hj]
  termTail j hj := by
    simp only [configuredGrouper] at hj ⊢
    rw [entry_fillBuffer _ _ _ ht, List.getD_eq_default _ _ hj]
  counterLe := Nat.zero_le _
  idlePending _ := ⟨rfl, rfl⟩
  pendingSep h := by simp [configuredGrouper, Grouper.empty] at h
  pendingTerm h := by simp [configuredGrouper, Grouper.empty] at h

end Sys2Proof.Machine
end

