-- ==== Sys2Proof/Laws/Step.lean ====
section
/-! SUPPORT. What a command, an act of an outside agent and a step can do, each said once: later proofs
take a step apart with these and unfold none of it. -/

namespace Sys2Proof.Machine

/-! ### A command -/

/-- A guarded command whose checks all name a code and an argument raises one of them or has its effect. -/
theorem State.guarded_raise_or_effect {s t effect : State} {cs : List Check} (h : s.guarded cs effect = .next t)
    (hc : ∀ c ∈ cs, c.code ≠ .ok ∧ c.arg ≠ .nothing) :
    (∃ code arg, code ≠ .ok ∧ arg ≠ .nothing ∧ t = s.raise code arg) ∨ ((∀ c ∈ cs, c.fails = false) ∧ t = effect) := by
  rcases State.guarded_cases h with ⟨c, hm, -, -, rfl⟩ | h
  · exact .inl ⟨c.code, c.arg, (hc c hm).1, (hc c hm).2, rfl⟩
  · exact .inr h

/-- A range check that passes on a range that is not empty. -/
theorem rangeCheck_pass {a n : Nat} {g : ArgIndex} (h : (rangeCheck a n g).fails = false) (hn : n ≠ 0) :
    a + n ≤ memSize := ((rangeCheck_passes a n g).mp h).resolve_left hn

/-- The checks of a bulk command. -/
theorem mem_bulkChecks {n : BitVec 4} {f : BulkFlags} {s : State} {c : Check} (h : c ∈ bulkChecks n f s) :
    c = ⟨!(s.aesCtx n).valid, .notReady, .inst⟩ ∨ ∃ a k g, g ≠ .nothing ∧ c = rangeCheck a k g := by
  unfold bulkChecks at h
  simp only [List.mem_append, List.mem_singleton] at h
  rcases h with rfl | h
  · exact .inl rfl
  · split at h
    · simp only [List.mem_append, List.mem_singleton] at h
      rcases h with (rfl | h) | rfl
      · exact .inr ⟨_, _, _, by decide, rfl⟩
      · split at h
        · rw [List.mem_singleton] at h
          exact .inr ⟨_, _, _, by decide, h⟩
        · simp at h
      · exact .inr ⟨_, _, _, by decide, rfl⟩
    · simp at h

/-- What command `i` does when it raises nothing: the checks it rests on, and the state it leaves. -/
def EffectOf (i : Instr) (s t : State) : Prop :=
  match i with
  | .aesSetKey n d => legalKeyLength s.len3 = true ∧ (s.len3 = 0 ∨ s.addr0 + s.len3 ≤ memSize) ∧
      t = (s.setAesCtx n (keyedContext d (s.mem.readN s.addr0 s.len3))).finish
        (BitVec.ofNat 32 (roundCount (s.mem.readN s.addr0 s.len3)))
  | .aesProcessBlock n x => (s.aesCtx n).valid = true ∧ s.addr2 + 16 ≤ memSize ∧
      t = (s.setMem (s.mem.writeN s.addr2 (xorBytes (cipher (s.aesCtx n) (s.mem.readN s.addr0 16))
        (if x then s.mem.readN s.addr1 16 else zeroBlock)))).finish 0
  | .aesProcessBlocks n x y d c => (s.aesCtx n).valid = true ∧
      (0 < s.blockCount → s.addr0 + bulkInLength ⟨x, y, d, c⟩ s.blockCount ≤ memSize ∧
        s.addr2 + bulkOutLength ⟨x, y, d, c⟩ s.blockCount ≤ memSize) ∧
      t = (bulkLoop (s.aesCtx n) ⟨x, y, d, c⟩ (s.blockCount - s.latch.k) s).finish (BitVec.ofNat 32 (s.len3 % 16))
  | .aesReadRk n => (s.aesCtx n).valid = true ∧ s.addr2 + 4 * (s.aesCtx n).wordCount ≤ memSize ∧
      t = (s.setMem (s.mem.writeN s.addr2 (scheduleBytes (s.aesCtx n).rk.toList (s.aesCtx n).wordCount))).finish
        ((s.aesCtx n).nr.setWidth 32)
  | .aesClearKey n => t = (s.setAesCtx n AesCtx.empty).finish 0
  | .bencInit n b _ p f q => (1 ≤ bitsPerChar b ∧ bitsPerChar b ≤ 7) ∧
      t = (s.setEncoder n (configuredEncoder (bitsPerChar b) (p && !f) q
        (s.mem.readN s.addr0 (2 ^ bitsPerChar b)))).finish (BitVec.ofNat 32 (encoderBlockSize (bitsPerChar b)))
  | .bencPut n k m => (s.encoder n).valid = true ∧
      let res := encoderUnit.run encoderBody (s.putJob .encoder n k m) ⟨s.encoder n, s.portE n, s.latch.pos⟩
      t = ((s.setEncoder n res.2.unit).setPortE n res.2.port).endPut res.1 res.2.pos
        (res.2.port.history.length - (s.portE n).history.length)
  | .bdecBuildLookup c => s.addr2 + 256 ≤ memSize ∧ ∃ l, buildLookup c (s.mem.readN s.addr0 s.len3) = some l ∧
      t = (s.setMem (s.mem.writeN s.addr2 l.table.toList)).finish (BitVec.ofNat 32 l.slotCount)
  | .bdecInit n b _ => (1 ≤ bitsPerChar b ∧ bitsPerChar b ≤ 7) ∧
      t = (s.setDecoder n (configuredDecoder (bitsPerChar b) (s.mem.readN s.addr0 256))).finish
        (BitVec.ofNat 32 (decoderBlockSize (bitsPerChar b)))
  | .bdecPut n k m => (s.decoder n).valid = true ∧
      let res := decoderUnit.run decoderBody (s.putJob .decoder n k m) ⟨s.decoder n, s.portD n, s.latch.pos⟩
      t = ((s.setDecoder n res.2.unit).setPortD n res.2.port).endPut res.1 res.2.pos
        (res.2.port.history.length - (s.portD n).history.length)
  | .grpInit n p q => (p = true → s.len3 ≤ 255) ∧ (q = true → s.len4 ≤ 255) ∧
      t = (s.setGrouper n (configuredGrouper s.param5 (if p then s.mem.readN s.addr0 s.len3 else [])
        (if q then s.mem.readN s.addr1 s.len4 else []))).finish 0
  | .grpPut n k m => (s.grouper n).valid = true ∧
      let res := grouperUnit.run grouperBody (s.putJob .grouper n k m) ⟨s.grouper n, s.portG n, s.latch.pos⟩
      t = ((s.setGrouper n res.2.unit).setPortG n res.2.port).endPut res.1 res.2.pos
        (res.2.port.history.length - (s.portG n).history.length)

/-- All that a command can do: raise an error, with a code and an argument index that are not 0 (R270,
R271), or have its effect. -/
theorem exec_raise_or_effect {i : Instr} {s t : State} (h : exec i s = .next t) :
    (∃ code arg, code ≠ .ok ∧ arg ≠ .nothing ∧ t = s.raise code arg) ∨ EffectOf i s t := by
  cases i with
  | aesSetKey n d =>
    refine (State.guarded_raise_or_effect h ?_).imp_right fun ⟨hp, he⟩ => ⟨?_, ?_, he⟩
    · simp [setKeyChecks]
    · simpa using hp ⟨!legalKeyLength s.len3, .invalidKeyLength, .a3⟩ (by simp [setKeyChecks])
    · exact (rangeCheck_passes _ _ .a0).mp (hp _ (by simp [setKeyChecks]))
  | aesProcessBlock n x =>
    refine (State.guarded_raise_or_effect h ?_).imp_right fun ⟨hp, he⟩ => ⟨?_, ?_, he⟩
    · cases x <;> simp [processBlockChecks]
    · simpa using hp ⟨!(s.aesCtx n).valid, .notReady, .inst⟩ (by simp [processBlockChecks])
    · exact rangeCheck_pass (hp (rangeCheck s.addr2 16 .a2) (by simp [processBlockChecks])) (by decide)
  | aesProcessBlocks n x y d c =>
    refine (State.guarded_raise_or_effect h ?_).imp_right fun ⟨hp, he⟩ => ⟨?_, fun hn => ⟨?_, ?_⟩, he⟩
    · intro c hc
      rcases mem_bulkChecks hc with rfl | ⟨_, _, _, hg, rfl⟩
      · exact ⟨nofun, nofun⟩
      · exact ⟨nofun, hg⟩
    · simpa using hp ⟨!(s.aesCtx n).valid, .notReady, .inst⟩ (by simp [bulkChecks])
    · refine rangeCheck_pass (g := .a0) (hp _ (by simp [bulkChecks, hn])) ?_
      unfold bulkInLength
      split <;> omega
    · refine rangeCheck_pass (g := .a2) (hp _ (by simp [bulkChecks, hn])) ?_
      unfold bulkOutLength
      split <;> omega
  | aesReadRk n =>
    refine (State.guarded_raise_or_effect h ?_).imp_right fun ⟨hp, he⟩ => ⟨?_, ?_, he⟩
    · simp [readRkChecks]
    · simpa using hp ⟨!(s.aesCtx n).valid, .notReady, .inst⟩ (by simp [readRkChecks])
    · exact rangeCheck_pass (g := .a2) (hp _ (by simp [readRkChecks])) (by simp [AesCtx.wordCount])
  | aesClearKey n => exact (State.guarded_raise_or_effect (cs := []) h (by simp)).imp_right fun ⟨_, he⟩ => he
  | bencInit n b a p f q =>
    refine (State.guarded_raise_or_effect h ?_).imp_right fun ⟨hp, he⟩ => ⟨?_, he⟩
    · simp [bencInitChecks]
    · have := hp ⟨decide (bitsPerChar b < 1 ∨ 7 < bitsPerChar b), .invalidArgument, .flags⟩ (by simp [bencInitChecks])
      simp only [decide_eq_false_iff_not] at this
      omega
  | bencPut n k m =>
    refine (State.guarded_raise_or_effect h ?_).imp_right fun ⟨hp, he⟩ => ⟨?_, he⟩
    · simp [putChecks]
    · simpa [encoderUnit] using hp ⟨!encoderUnit.valid (s.encoder n), .notReady, .inst⟩ (by simp [putChecks])
  | bdecBuildLookup c =>
    refine (State.guarded_raise_or_effect h ?_).imp_right fun ⟨hp, he⟩ => ⟨?_, ?_⟩
    · simp [buildLookupChecks]
    · exact rangeCheck_pass (hp (rangeCheck s.addr2 256 .a2) (by simp [buildLookupChecks])) (by decide)
    · have := hp ⟨(buildLookup c (s.mem.readN s.addr0 s.len3)).isNone, .duplicateSymbol, .a0⟩ (by simp [buildLookupChecks])
      simp only [Option.isNone_eq_false_iff, Option.isSome_iff_exists] at this
      obtain ⟨l, hl⟩ := this
      exact ⟨l, hl, by rw [he, hl]; rfl⟩
  | bdecInit n b l =>
    refine (State.guarded_raise_or_effect h ?_).imp_right fun ⟨hp, he⟩ => ⟨?_, he⟩
    · simp [bdecInitChecks]
    · have := hp ⟨decide (bitsPerChar b < 1 ∨ 7 < bitsPerChar b), .invalidArgument, .flags⟩ (by simp [bdecInitChecks])
      simp only [decide_eq_false_iff_not] at this
      omega
  | bdecPut n k m =>
    refine (State.guarded_raise_or_effect h ?_).imp_right fun ⟨hp, he⟩ => ⟨?_, he⟩
    · simp [putChecks]
    · simpa [decoderUnit] using hp ⟨!decoderUnit.valid (s.decoder n), .notReady, .inst⟩ (by simp [putChecks])
  | grpInit n p q =>
    refine (State.guarded_raise_or_effect h ?_).imp_right fun ⟨hp, he⟩ => ⟨?_, ?_, he⟩
    · cases p <;> cases q <;> simp [grpInitChecks]
    · have := hp ⟨p && decide (Config.params.maxStr < s.len3), .invalidArgument, .a3⟩ (by simp [grpInitChecks])
      rintro rfl
      simpa using this
    · have := hp ⟨q && decide (Config.params.maxStr < s.len4), .invalidArgument, .a4⟩ (by simp [grpInitChecks])
      rintro rfl
      simpa using this
  | grpPut n k m =>
    refine (State.guarded_raise_or_effect h ?_).imp_right fun ⟨hp, he⟩ => ⟨?_, he⟩
    · simp [putChecks]
    · simpa [grouperUnit] using hp ⟨!grouperUnit.valid (s.grouper n), .notReady, .inst⟩ (by simp [putChecks])

/-! ### The engine, the agents outside, a step -/

/-- All that the engine's turn can do. -/
theorem State.engineTurn_cases {s t : State} (h : s.engineTurn = .next t) :
    (s.status.busy = false ∧ t = s) ∨
      (s.status.busy = true ∧ ∃ e, decode s.latch.cmd = .error e ∧ t = s.raise .illegalCommand (decodeErrorArg e)) ∨
      (s.status.busy = true ∧ ∃ i, decode s.latch.cmd = .ok i ∧ exec i s = .next t) := by
  unfold State.engineTurn at h
  split at h
  · rename_i hb
    split at h
    · exact .inr (.inl ⟨hb, _, ‹_›, by simpa using h.symm⟩)
    · exact .inr (.inr ⟨hb, _, ‹_›, h⟩)
  · rename_i hb
    exact .inl ⟨by simpa using hb, by simpa using h.symm⟩

/-- All that a register write can do (R20 to R26): start a command, set or clear `OVERRUN`, write one
argument register, or nothing. -/
theorem State.writeRegister_cases (s : State) (offset : Nat) (w : Word) :
    (s.status.busy = false ∧ s.writeRegister offset w = s.startCommand w) ∨
      (∃ v, s.writeRegister offset w = { s with status := { s.status with overrun := v } }) ∨
      ∃ a, s.writeRegister offset w = { s with args := a } := by
  unfold State.writeRegister
  split
  · unfold State.writeCmd
    split
    · exact .inr (.inl ⟨true, rfl⟩)
    · rename_i hb
      exact .inl ⟨by simpa using hb, rfl⟩
  · unfold State.writeStatus
    split
    · exact .inr (.inl ⟨false, rfl⟩)
    · exact .inr (.inl ⟨s.status.overrun, rfl⟩)
  all_goals exact .inr (.inr ⟨_, rfl⟩)

/-- All that a reset can do (R300, R301): restart the block, and keep in the port of an interrupted put what
has happened of it. -/
theorem State.applyReset_cases (s : State) :
    s.applyReset = s.restart ∨
      ∃ i u n, s.running = some i ∧ putInstance i = some (u, n) ∧
        s.applyReset = s.restart.setPort u n
          ((s.port u n).interrupt ((s.ranOn i).port u n) s.latch.events (Config.resetCut s.freeCount)) := by
  unfold State.applyReset
  split
  · exact .inl rfl
  · split
    · exact .inl rfl
    · exact .inr ⟨_, _, _, ‹_›, ‹_›, rfl⟩

/-- What the history of an interrupted put's port holds was there or would have come (R301). -/
theorem Port.mem_interrupt {p after : Port} {events cut : Nat} {e : Event}
    (h : e ∈ (p.interrupt after events cut).history) : e ∈ p.history ∨ e ∈ after.history := by
  simp only [Port.interrupt, List.mem_append] at h
  rcases h with h | h
  · exact .inl (List.mem_of_mem_drop h)
  · exact .inr (List.mem_of_mem_drop (List.mem_of_mem_take h))

/-- All that one act can do. -/
theorem State.perform_cases {s t : State} {a : Input} (h : s.perform a = .next t) :
    (∃ offset w, t = s.writeRegister offset w) ∨
      (∃ offset, t = { s with rdData := s.readRegister offset }) ∨
      (∃ addr bytes, (bytes.length = 0 ∨ addr + bytes.length ≤ memSize) ∧ t = s.setMem (s.mem.writeN addr bytes)) ∨
      (∃ l, t = { s with ldData := l, freeCount := s.freeCount + 1 }) ∨
      (∃ inputs rd, State.engineTurn { s with inputs := inputs, rdData := rd } = .next t) ∨
      (∃ q n, t = s.sinkAnswer q n) ∨ t = s.applyReset := by
  cases a with
  | writeReg offset width w =>
    simp only [State.perform, State.busWrite] at h
    split at h
    · exact .inl ⟨offset, w, by simpa using h.symm⟩
    · cases h
  | readReg offset width =>
    simp only [State.perform, State.busRead] at h
    split at h
    · exact .inr (.inl ⟨offset, by simpa using h.symm⟩)
    · cases h
  | store addr bytes =>
    simp only [State.perform, State.hostStore] at h
    split at h
    · cases h
    · rename_i hm
      split at h
      · cases h
      · exact .inr (.inr (.inl ⟨addr, bytes, by simpa only [inMemory, Bool.not_eq_true', decide_eq_false_iff_not, not_not] using hm, by simpa using h.symm⟩))
  | load addr n =>
    simp only [State.perform, State.hostLoad] at h
    split at h
    · cases h
    · exact .inr (.inr (.inr (.inl ⟨_, by simpa using h.symm⟩)))
  | wait =>
    simp only [State.perform] at h
    split at h
    · exact .inr (.inr (.inr (.inr (.inl ⟨_, _, h⟩))))
    · rename_i hb
      exact .inr (.inr (.inr (.inr (.inl ⟨s.inputs, _, by simpa [State.engineTurn, hb] using h⟩))))
  | engine => exact .inr (.inr (.inr (.inr (.inl ⟨s.inputs, s.rdData, h⟩))))
  | sinkAnswers q n => exact .inr (.inr (.inr (.inr (.inr (.inl ⟨q, n, by simpa [State.perform] using h.symm⟩)))))
  | reset => exact .inr (.inr (.inr (.inr (.inr (.inr (by simpa [State.perform] using h.symm))))))

/-- All that a step can do: the engine's turn, or the first act listed. -/
theorem step_cases {s t : State} (h : step s = .next t) :
    (s.inputs = [] ∧ s.engineTurn = .next t) ∨
      ∃ a rest, s.inputs = a :: rest ∧ State.perform { s with inputs := rest } a = .next t := by
  unfold step State.advance at h
  split at h
  · exact .inl ⟨‹_›, h⟩
  · exact .inr ⟨_, _, ‹_›, h⟩

end Sys2Proof.Machine
end

