-- ==== Sys2Proof/Tests/Slice0.lean ====
section
/-! SUPPORT. Tests: each check of `WellFormed` on an ill-formed term, the decoding of words written out
from the encodings of spec/30_encoding.md, single steps with the results of spec/95_test_vectors.md, and
for each statement that has hypotheses a state and operands that meet them. -/

namespace Sys2Proof.Tests

open Sys2Proof.Machine Sys2Proof.Statements

set_option Elab.async false

/-! ### Well-formedness: `INST` past the number of units (R82) -/

theorem test_wf_refuses_aesSetKey : (Instr.aesSetKey 1 .encrypt).wellFormed = false := by decide
theorem test_wf_refuses_aesProcessBlock : (Instr.aesProcessBlock 15 true).wellFormed = false := by decide
theorem test_wf_refuses_aesProcessBlocks : (Instr.aesProcessBlocks 1 true false false true).wellFormed = false := by decide
theorem test_wf_refuses_aesReadRk : (Instr.aesReadRk 1).wellFormed = false := by decide
theorem test_wf_refuses_aesClearKey : (Instr.aesClearKey 8).wellFormed = false := by decide
theorem test_wf_refuses_bencInit : (Instr.bencInit 1 6 true false false 0).wellFormed = false := by decide
theorem test_wf_refuses_bencPut : (Instr.bencPut 1 true 1).wellFormed = false := by decide
theorem test_wf_refuses_bdecInit : (Instr.bdecInit 1 6 true).wellFormed = false := by decide
theorem test_wf_refuses_bdecPut : (Instr.bdecPut 1 true 1).wellFormed = false := by decide
theorem test_wf_refuses_grpInit : (Instr.grpInit 1 true true).wellFormed = false := by decide
theorem test_wf_refuses_grpPut : (Instr.grpPut 1 true 1).wellFormed = false := by decide

/-! ### Decoding: a word for each constructor, from the fields of R80 to R87 (`PARAM8 FLAGS 0 INST OPC`) -/

theorem test_decode_aesSetKey : decode 0x00010001#32 = .ok (.aesSetKey 0 .decrypt) := by decide
theorem test_decode_aesProcessBlock : decode 0x00010002#32 = .ok (.aesProcessBlock 0 true) := by decide
theorem test_decode_aesProcessBlocks : decode 0x00060003#32 = .ok (.aesProcessBlocks 0 false true true false) := by decide
theorem test_decode_aesReadRk : decode 0x00000004#32 = .ok (.aesReadRk 0) := by decide
theorem test_decode_aesClearKey : decode 0x00000005#32 = .ok (.aesClearKey 0) := by decide
theorem test_decode_bencInit : decode 0x3D2E0010#32 = .ok (.bencInit 0 6 true false true 0x3D#8) := by decide
theorem test_decode_bencPut : decode 0x02010011#32 = .ok (.bencPut 0 true 2#8) := by decide
theorem test_decode_bdecBuildLookup : decode 0x00010018#32 = .ok (.bdecBuildLookup true) := by decide
theorem test_decode_bdecInit : decode 0x000D0019#32 = .ok (.bdecInit 0 5 true) := by decide
theorem test_decode_bdecPut : decode 0xFF00001A#32 = .ok (.bdecPut 0 false 0xFF#8) := by decide
theorem test_decode_grpInit : decode 0x00020020#32 = .ok (.grpInit 0 false true) := by decide
theorem test_decode_grpPut : decode 0x01010021#32 = .ok (.grpPut 0 true 1#8) := by decide

/-- One word for each condition of R88: a reserved `OPC`, `RSVD`, `FLAGS`, `PARAM8`, `INST`. -/
theorem test_decode_rejects :
    decode 0x00000006#32 = .error .opcodeOrReserved ∧ decode 0x00001004#32 = .error .opcodeOrReserved ∧
    decode 0x00100003#32 = .error .undefinedFlag ∧ decode 0x01000018#32 = .error .param8NotZero ∧
    decode 0x00000118#32 = .error .instOutOfRange ∧ decode 0x00000104#32 = .error .instOutOfRange := by decide

theorem test_decodeTableWord : decodeTableWord 32 0x00010020 = some (.grpInit 0 true false) := by decide

/-! ### The machine: helpers -/

/-- A command word just started with arguments `a` and memory `m`; all else as after reset. -/
def started (w : Word) (a : Args) (m : Memory) : State :=
  { State.reset with args := a, mem := m, latch := ⟨w, a, 0, 0, 0⟩, status := ⟨true, false, false, false, .ok, .nothing⟩ }

/-- The same with a key in context 0. -/
def withKey (s : State) (d : Direction) (key : List Byte) : State := { s with aes := Vector.replicate _ (keyedContext d key) }

/-- The same with an encoder and its sink's answers. -/
def withEncoder (s : State) (e : Encoder) (answers : List Nat) : State :=
  { s with enc := Vector.replicate _ e, outE := Vector.replicate _ ⟨[], answers, 0⟩ }

/-- The same with a decoder and its sink's answers. -/
def withDecoder (s : State) (d : Decoder) (answers : List Nat) : State :=
  { s with dec := Vector.replicate _ d, outD := Vector.replicate _ ⟨[], answers, 0⟩ }

/-- The same with a Grouper and its sink's answers. -/
def withGrouper (s : State) (g : Grouper) (answers : List Nat) : State :=
  { s with grp := Vector.replicate _ g, outG := Vector.replicate _ ⟨[], answers, 0⟩ }

/-- The state after one step; the state itself if the machine stops. -/
def after (s : State) : State :=
  match step s with
  | .next t => t
  | .fault _ => s
  | .refused _ => s

/-- Bytes `0, 1, …, n-1`: the key of 95_test_vectors.md section 2.2. -/
def countUp (n : Nat) : List Byte := (List.range n).map (BitVec.ofNat 8)

/-- Memory with bytes `l` at `a`. -/
def at_ (a : Nat) (l : List Byte) : Memory := Memory.writeN [] a l

/-! ### One step, with the results of spec/95_test_vectors.md -/

/-- 2.2.2: the decryption schedule's word 4, `RESULT` and `STATUS`. -/
theorem test_setKey :
    let t := after (started 0x00010001#32 ⟨0x100, 0, 0, 16, 0, 0⟩ (at_ 0x100 (countUp 16)))
    t.status.toWord = 0x00000002#32 ∧ t.result = 10 ∧ entry (t.aesCtx 0).rk 4 0 = 0x13aa29be#32 := by decide +kernel

/-- 2.2.6: the length is checked before the address. -/
theorem test_setKey_length :
    (after (started 0x00000001#32 ⟨0xFFFFFFF8, 0, 0, 20, 0, 0⟩ [])).status.toWord = 0x00040202#32 := by decide +kernel

/-- 2.2.10: bytes 16 to 19 of what `AES_READ_RK` writes. -/
theorem test_readRk :
    let t := after (withKey (started 0x00000004#32 ⟨0, 0, 0x400, 0, 0, 0⟩ []) .encrypt (countUp 16))
    t.mem.readN 0x410 4 = [0xd6#8, 0xaa#8, 0x74#8, 0xfd#8] ∧ t.result = 10 := by decide +kernel

/-- 2.2.14: a schedule that runs past the top of memory. -/
theorem test_readRk_range :
    (after (withKey (started 0x00000004#32 ⟨0, 0, 0xFFFFFF60, 0, 0, 0⟩ []) .encrypt (countUp 16))).status.toWord
      = 0x00030402#32 := by decide +kernel

/-- 2.2.18: the context is at its reset value. -/
theorem test_clearKey :
    let t := after (withKey (started 0x00000005#32 ⟨0, 0, 0, 0, 0, 0⟩ []) .encrypt (countUp 16))
    t.status.toWord = 0x00000002#32 ∧ t.aes = State.reset.aes := by decide +kernel

/-- The plaintext of CPM's scenario 1. -/
def plaintext : List Byte := (List.range 16).map (fun i => BitVec.ofNat 8 (17 * i))

/-- 2.3.1: CPM's scenario 1 (FIPS-197 C.1). -/
theorem test_processBlock :
    let t := after (withKey (started 0x00000002#32 ⟨0x200, 0, 0x300, 0, 0, 0⟩ (at_ 0x200 plaintext)) .encrypt (countUp 16))
    t.mem.readN 0x300 16 = [0x69#8, 0xc4#8, 0xe0#8, 0xd8#8, 0x6a#8, 0x7b#8, 0x04#8, 0x30#8, 0xd8#8, 0xcd#8, 0xb7#8,
      0x80#8, 0x70#8, 0xb4#8, 0xc5#8, 0x5a#8] := by decide +kernel

/-- 2.3.10: `A0` is checked before `A1`. -/
theorem test_processBlock_range :
    (after (withKey (started 0x00010002#32 ⟨0xFFFFFFF8, 0xFFFFFFF8, 0, 0, 0, 0⟩ []) .encrypt (countUp 16))).status.toWord
      = 0x00010402#32 := by decide +kernel

/-- 2.4.13: `XOR_INPUT` puts the xor block in before the cipher. -/
theorem test_processBlocks :
    let m := Memory.writeN (at_ 0x200 plaintext) 0x280 (List.replicate 16 0xFF#8)
    let t := after (withKey (started 0x00030003#32 ⟨0x200, 0x280, 0x300, 16, 0, 0⟩ m) .encrypt (countUp 16))
    t.mem.readN 0x300 4 = [0x1b#8, 0x87#8, 0x23#8, 0x78#8] ∧ t.result = 0 := by decide +kernel

/-- 2.4.2: below 16 bytes nothing is checked or done. -/
theorem test_processBlocks_tail :
    let t := after (withKey (started 0x000F0003#32 ⟨0xFFFFFFFF, 0xFFFFFFFF, 0xFFFFFFFF, 15, 0, 0⟩ []) .encrypt (countUp 16))
    t.status.toWord = 0x00000002#32 ∧ t.result = 15 := by decide +kernel

/-- The counters of 2.4.7 and 2.4.8, after one increment at each width (R171). -/
theorem test_ctrInc :
    let p : List Byte := List.replicate 7 0 ++ List.replicate 9 0xFF#8
    ctrIncWidth 16 p = List.replicate 6 0 ++ [1#8] ++ List.replicate 9 0#8 ∧
      ctrIncWidth 8 p = List.replicate 7 0 ++ [0xFF#8] ++ List.replicate 8 0#8 := by decide +kernel

/-- A Base64 encoder with padding. -/
def base64 : Encoder := configuredEncoder 6 true 0x3D#8 base64Alphabet

/-- 2.5.1: `b = 7` has blocks of 8 symbols. -/
theorem test_bencInit :
    let t := after (started 0x000F0010#32 ⟨0x1000, 0, 0, 0, 0, 0⟩ (at_ 0x1000 (countUp 128)))
    t.result = 8 ∧ entry (t.encoder 0).alphabet 127 0 = 0x7F#8 := by decide +kernel

/-- 2.5.9: `BPC = 0`. -/
theorem test_bencInit_bpc :
    (after (started 0x00080010#32 ⟨0x1000, 0, 0, 0, 0, 0⟩ [])).status.toWord = 0x00080302#32 := by decide +kernel

/-- 2.5.5: `"Ma"` with `mel = 2`. -/
theorem test_bencPut :
    let t := after (withEncoder (started 0x02010011#32 ⟨0x2000, 0, 0, 2, 0, 0⟩ (at_ 0x2000 [0x4d#8, 0x61#8])) base64 [4])
    (t.portE 0).history = [.offer [0x54#8, 0x57#8, 0x45#8, 0x3D#8] 1 true 4, .ended 1] ∧ t.status.toWord = 0x00000002#32 := by
  decide +kernel

/-- 2.5.7, put 1: the sink takes one byte of the first block. -/
theorem test_bencPut_stall :
    let m := at_ 0x2000 [0x4d#8, 0x61#8, 0x6e#8, 0x4d#8, 0x61#8]
    let t := after (withEncoder (started 0x01000011#32 ⟨0x2000, 0, 0, 5, 0, 0⟩ m) base64 [1])
    t.status.toWord = 0x00000006#32 ∧ t.result = 2 ∧ (t.encoder 0).fsm = .pendBlock ∧ (t.encoder 0).pendOff = 1 := by
  decide +kernel

/-- 2.6.1: hex, case-insensitive: 22 slots, `L['a'] = L['A'] = 10`. -/
theorem test_buildLookup :
    let t := after (started 0x00010018#32 ⟨0x1000, 0, 0x3000, 16, 0, 0⟩ (at_ 0x1000 hexAlphabet))
    t.result = 22 ∧ t.mem.read 0x3061 = 10 ∧ t.mem.read 0x3041 = 10 ∧ t.mem.read 0x303D = 0xFF#8 := by decide +kernel

/-- 2.6.1: `"AA"` names one symbol twice; nothing is written. -/
theorem test_buildLookup_duplicate :
    let m := at_ 0x1000 [0x41#8, 0x41#8]
    let t := after (started 0x00000018#32 ⟨0x1000, 0, 0x3000, 2, 0, 0⟩ m)
    t.status.toWord = 0x00010602#32 ∧ t.mem = m := by decide +kernel

/-- The Base64 lookup table at the six letters the tests below use, `0xFF` elsewhere. -/
def base64Table : List Byte :=
  (List.range 256).map (fun c => if c = 0x54 then 19#8 else if c = 0x52 then 17#8 else if c = 0x57 then 22#8
    else if c = 0x46 then 5#8 else if c = 0x75 then 46#8 else if c = 0x51 then 16#8 else 0xFF#8)

/-- 2.6.2: `b = 7` has blocks of 7 bytes. -/
theorem test_bdecInit :
    let t := after (started 0x000F0019#32 ⟨0x3000, 0, 0, 0, 0, 0⟩ (at_ 0x3000 [5#8]))
    t.result = 7 ∧ entry (t.decoder 0).lookup 0 0 = 5#8 := by decide +kernel

/-- 2.6.2: a table that does not fit. -/
theorem test_bdecInit_range :
    (after (started 0x000E0019#32 ⟨0xFFFFFF01, 0, 0, 0, 0, 0⟩ [])).status.toWord = 0x00010402#32 := by decide +kernel

/-- 2.6.3: `"TR=="` decodes to `"M"`: the nonzero leftover bits are dropped. -/
theorem test_bdecPut :
    let m := at_ 0x2000 [0x54#8, 0x52#8, 0x3D#8, 0x3D#8]
    let t := after (withDecoder (started 0x0101001A#32 ⟨0x2000, 0, 0, 4, 0, 0⟩ m) (configuredDecoder 6 base64Table) [9])
    streamOf (t.portD 0).history = [.byte 0x4D#8] ∧ t.result = 0 := by decide +kernel

/-- 2.6.5: the first put stalls on `"Man"` with `"TQ=="` not read. -/
theorem test_bdecPut_stall :
    let m := at_ 0x2000 [0x54#8, 0x57#8, 0x46#8, 0x75#8, 0x54#8, 0x51#8, 0x3D#8, 0x3D#8]
    let t := after (withDecoder (started 0x0100001A#32 ⟨0x2000, 0, 0, 8, 0, 0⟩ m) (configuredDecoder 6 base64Table) [0])
    t.status.toWord = 0x00000006#32 ∧ t.result = 4 ∧ (t.decoder 0).fsm = .pendBlock := by decide +kernel

/-- R250: a group size without a separator is an error. -/
theorem test_grpInit_noSeparator :
    (after (started 0x00000020#32 ⟨0, 0, 0, 0, 0, 4⟩ [])).status.toWord = 0x00080302#32 := by decide +kernel

/-- CPM's scenario 8: the separator and the group size are copied. -/
theorem test_grpInit :
    let t := after (started 0x00010020#32 ⟨0x10, 0, 0, 1, 0, 4⟩ (at_ 0x10 [0x2D#8]))
    (t.grouper 0).sepLen = 1 ∧ entry (t.grouper 0).sep 0 0 = 0x2D#8 ∧ (t.grouper 0).groupSize = 4 ∧ (t.grouper 0).termLen = 0 := by decide +kernel

/-- CPM's scenario 8, groups of 2: `"ABCDE"` becomes `"AB-CD-E"`. -/
theorem test_grpPut :
    let m := at_ 0x20 [0x41#8, 0x42#8, 0x43#8, 0x44#8, 0x45#8]
    let t := after (withGrouper (started 0x01010021#32 ⟨0x20, 0, 0, 5, 0, 0⟩ m) (configuredGrouper 2 [0x2D#8] [])
      [9, 9, 9, 9, 9, 9])
    bytesOf (streamOf (t.portG 0).history) = [0x41#8, 0x42#8, 0x2D#8, 0x43#8, 0x44#8, 0x2D#8, 0x45#8] := by decide +kernel

/-- R252: the untaken bytes of a data chunk are the residual; nothing pends. -/
theorem test_grpPut_stall :
    let m := at_ 0x20 [0x41#8, 0x42#8, 0x43#8]
    let t := after (withGrouper (started 0x00000021#32 ⟨0x20, 0, 0, 3, 0, 0⟩ m) (configuredGrouper 3 [0x2D#8] []) [2])
    t.status.toWord = 0x00000006#32 ∧ t.result = 1 ∧ (t.grouper 0).fsm = .idle ∧ (t.grouper 0).counter = 2 := by decide +kernel

/-- R21: a write to `CMD` while a command runs is dropped and sets `OVERRUN`. -/
theorem test_overrun :
    (after { started 0x00000005#32 Args.zero [] with inputs := [.writeReg 0 32 0x00000001#32] }).status.toWord
      = 0x00000009#32 := by decide +kernel

/-- R93, log 4: `WAIT` reads `STATUS` (0x00000001) before the engine's turn and stays listed; once `BUSY = 0`
it reads 0x00000002 and is over. -/
theorem test_wait :
    let t := after { started 0x00000005#32 Args.zero [] with inputs := [.wait] }
    t.rdData = 0x00000001#32 ∧ t.inputs = [.wait] ∧ (after t).rdData = 0x00000002#32 ∧ (after t).inputs = [] := by
  decide +kernel

/-- 95_test_vectors.md P2, R92: the second `AES_CTR` names no `a0` and leaves `A0` as it is. -/
theorem test_pseudo_keeps_unnamed :
    (Pseudo.aesCtr (a1 := some 0x620) (a2 := some 0x720) (a3 := some 16)).expand.assemble
      = [.writeReg 0x0C 32 0x620, .writeReg 0x10 32 0x720, .writeReg 0x14 32 16, .writeReg 0x00 32 0x00090003#32, .wait] := by
  decide

/-- R92: the words of P3's `BASE64_INIT` and P4's `BDEC_INIT bpc=6 lut`. -/
theorem test_statement_words :
    (Pseudo.base64Init (a0 := some 0x1000)).expand.word = 0x3D1E0010#32 ∧
    (Statement.word { mnemonic := .bdecInit (lut := true), bpc := some 6 }) = 0x000E0019#32 := by decide

/-- R88, R92: `BDEC_BUILD_LOOKUP.1` and `AES_SET_KEY p8=1` can be written; their words are illegal. -/
theorem test_statement_illegal_words :
    decode (Statement.word { mnemonic := .bdecBuildLookup, inst := 1 }) = .error .instOutOfRange ∧
    decode (Statement.word { mnemonic := .aesSetKey, param8 := some 1 }) = .error .param8NotZero := by decide

/-- R48: a reset during a command that is no put empties every history. -/
theorem test_reset_clears :
    let s := { started 0x00000002#32 Args.zero [] with outE := Vector.replicate _ ⟨[.ended 1], [4], 0⟩, inputs := [.reset] }
    (after s).outE = Vector.replicate _ ⟨[], [4], 0⟩ := by decide +kernel

/-- R301: of a put that had made one offer, that offer stays, what came before the put is cleared, and the
offer in progress happened, using its answer, or did not. -/
theorem test_reset_interrupts :
    let o (t : Nat) : Event := .offer [1#8, 2#8] 0 true t
    let p : Port := ⟨[.ended 1, o 0], [2], 0⟩
    let q : Port := ⟨[.ended 1, o 0, o 2], [], 0⟩
    p.interrupt q 1 0 = ⟨[o 0], [2], 0⟩ ∧ p.interrupt q 1 1 = ⟨[o 0, o 2], [], 0⟩ := by decide

/-! ### Witnesses: for each statement with hypotheses, a state and operands that meet them -/

/-- Arguments that fit everywhere: buffers at 0x100, 0x200 and 0x300, length `n`, terminator length 1,
group size 4. -/
def someArgs (n : Nat) : Args := ⟨0x100, 0x200, 0x300, BitVec.ofNat 32 n, 1, 4⟩

/-- An encoder of 2 symbols, a decoder of 2, a Grouper of groups of 2. -/
def smallEncoder : Encoder := configuredEncoder 1 true 0x3D#8 [0x30#8, 0x31#8]
def smallDecoder : Decoder := configuredDecoder 1 (List.replicate 48 0xFF#8 ++ [0#8, 1#8])
def smallGrouper : Grouper := configuredGrouper 2 [0x2D#8] [0x2E#8]

/-- Every unit ready, with answers enough for small puts, running word `w` with length `n`. -/
def ready (w : Word) (n : Nat) : State :=
  withGrouper (withDecoder (withEncoder (withKey (started w (someArgs n) (at_ 0x100 [0x41#8, 0x30#8])) .encrypt (countUp 16))
    smallEncoder (List.replicate 9 300)) smallDecoder (List.replicate 9 300)) smallGrouper (List.replicate 9 300)

theorem smallEncoder_inv : smallEncoder.Inv := configuredEncoder_inv 1 true _ _ (by decide) (by decide) (by decide)
theorem smallDecoder_inv : smallDecoder.Inv := configuredDecoder_inv 1 _ (by decide) (by decide)
theorem smallGrouper_inv : smallGrouper.Inv := configuredGrouper_inv 2 _ _ (by decide) (by decide)

theorem witness_DecodeUndoesEncode : (Instr.bencInit 0 7 true true true 0xFF#8).WellFormed ∧ (Instr.grpPut 0 true 0xFF#8).WellFormed := by decide

theorem witness_EncodeUndoesDecode : decode 0xFF3F0010#32 = .ok (.bencInit 0 7 true true true 0xFF#8) := by decide

/-- One illegal word for each of R88's conditions, with its argument index; the words that meet the first
are latched in a running machine. -/
theorem witness_IllegalWordsAreRejected :
    (started 0x00000000#32 Args.zero []).inputs = [] ∧ (started 0x00000000#32 Args.zero []).status.busy = true ∧
      (started 0x00000000#32 Args.zero []).latch.cmd = 0x00000000#32 ∧
      IllegalAt 0x00000000#32 .opcode ∧ IllegalAt 0x00001001#32 .opcode ∧ IllegalAt 0x01020F01#32 .flags ∧
      IllegalAt 0x01000F01#32 .param8 ∧ IllegalAt 0x00000F01#32 .inst := by
  refine ⟨rfl, rfl, rfl, .inl ⟨rfl, .inl ?_⟩, .inl ⟨rfl, .inr (by decide)⟩, .inr ⟨.aesSetKey, by decide⟩,
    .inr ⟨.aesSetKey, by decide⟩, .inr ⟨.aesSetKey, by decide⟩⟩
  intro op
  cases op <;> decide

/-- With no act listed, the engine listed, and the host waiting; and a word longer than a command word. -/
theorem witness_StepRunsDecodedCommand :
    ((ready 0x00000005#32 0).status.busy = true ∧ decode (ready 0x00000005#32 0).latch.cmd = .ok (.aesClearKey 0) ∧
      (ready 0x00000005#32 0).inputs = [] ∧ { ready 0x00000005#32 0 with inputs := [.engine] }.inputs = .engine :: [] ∧
      { ready 0x00000005#32 0 with inputs := [.wait] }.inputs = .wait :: []) ∧
      decode (BitVec.ofNat 32 (0x100000005 % 2 ^ 32)) = .ok (.aesClearKey 0) := by decide

theorem witness_CmdRegisterStartsCommands :
    State.reset.status.busy = false ∧ (ready 0 0).status.busy = true ∧
      exec (.aesClearKey 0) (ready 0x00000005#32 0)
        = .next (((ready 0x00000005#32 0).setAesCtx 0 AesCtx.empty).finish 0) := ⟨rfl, rfl, rfl⟩

/-- At `A0` and at `A5`, and that the write and the read answer there. -/
theorem witness_ArgumentRegistersReadBack :
    (0 < 6 ∧ 5 < 6) ∧
      step { State.reset with inputs := .writeReg (0x08 + 4 * 5) 32 7#32 :: [] }
        = .next { State.reset with args := { Args.zero with a5 := 7#32 } } ∧
      step { State.reset with inputs := .readReg (0x08 + 4 * 0) 32 :: [] }
        = .next { State.reset with rdData := 0#32 } := ⟨by decide, rfl, rfl⟩

/-- A narrow access, an access between two registers, and one just past the block. -/
theorem witness_OtherRegisterAccessesAreRefused :
    (16 ≠ 32 ∨ 0 % 4 ≠ 0 ∨ 0x3C < 0) ∧ (32 ≠ 32 ∨ 3 % 4 ≠ 0 ∨ 0x3C < 3) ∧ (32 ≠ 32 ∨ 0x40 % 4 ≠ 0 ∨ 0x3C < 0x40) := by decide

/-- The first and the last reserved offset. -/
theorem witness_ReservedOffsetsReadZeroAndIgnoreWrites :
    (0x28 ≤ 0x28 ∧ 0x28 ≤ 0x3C ∧ 0x28 % 4 = 0) ∧ (0x28 ≤ 0x3C ∧ 0x3C ≤ 0x3C ∧ 0x3C % 4 = 0) := by decide

/-- The smallest and the largest parameters. -/
theorem witness_IdRegisterHoldsParameters :
    let c : Config := ⟨32, 16, 16, 16, 16, 255, 16, 0⟩
    let d : Config := ⟨1, 1, 1, 1, 1, 1, 8, 0⟩
    (c.nAes ≤ 16 ∧ c.nBenc ≤ 16 ∧ c.nBdec ≤ 16 ∧ c.nGrp ≤ 16 ∧ c.aw ≤ 32 ∧ c.maxStr ≤ 255) ∧
      d.nAes ≤ 16 ∧ d.nBenc ≤ 16 ∧ d.nBdec ≤ 16 ∧ d.nGrp ≤ 16 ∧ d.aw ≤ 32 ∧ d.maxStr ≤ 255 := by decide

theorem witness_ResetGivesResetValues : { ready 0 0 with status := Status.zero }.status.busy = false := rfl

/-- A command with a destination, a put, and an illegal word. -/
theorem witness_ResetDuringCommandKeepsTheRest :
    ((ready 0x00000002#32 0).status.busy = true ∧ decode (ready 0x00000002#32 0).latch.cmd = .ok (.aesProcessBlock 0 false) ∧
      inRanges (destinations (.aesProcessBlock 0 false) (ready 0x00000002#32 0)) 0x310 = false) ∧
      (decode (ready 0x01010011#32 2).latch.cmd = .ok (.bencPut 0 true 1#8) ∧
        putInstance (.bencPut 0 true 1#8) = some (.encoder, 0)) ∧
      decode (ready 0x00000000#32 2).latch.cmd = .error .opcodeOrReserved := by decide +kernel

/-- A command that raises: a key of length 0. -/
theorem witness_ErrorsArePrecise :
    Started (ready 0x00000001#32 0) ∧
      exec (.aesSetKey 0 .encrypt) (ready 0x00000001#32 0) = .next ((ready 0x00000001#32 0).raise .invalidKeyLength .a3) ∧
      ((ready 0x00000001#32 0).raise .invalidKeyLength .a3).status.err ≠ .ok := ⟨⟨rfl, rfl⟩, rfl, by decide⟩

/-- Every unit ready with other arguments. -/
def readyOn (a : Args) : State := { ready 0 0 with latch := ⟨0, a, 0, 0, 0⟩ }

/-- Units without a key or a configuration; and for each other check, arguments just past its bound. -/
theorem witness_FailedChecksAreReported :
    ((State.reset.aesCtx 0).valid = false ∧ (State.reset.encoder 0).valid = false ∧
      (State.reset.decoder 0).valid = false ∧ (State.reset.grouper 0).valid = false) ∧
      (let s := readyOn ⟨0, 0, 0, 17, 0, 0⟩; s.len3 ≠ 16 ∧ s.len3 ≠ 24 ∧ s.len3 ≠ 32) ∧
      128 < (readyOn ⟨0, 0, 0, 129, 0, 0⟩).len3 ∧ 0 < (readyOn ⟨0, 0, 0, 0, 0, 1⟩).param5.toNat ∧
      255 < (readyOn ⟨0, 0, 0, 256, 0, 0⟩).len3 ∧
      (let s := readyOn ⟨0, 0, 0, 255, 256, 0⟩;
        255 < s.len4 ∧ (false = false → s.param5 = 0) ∧ (true = true → s.len3 ≤ 255)) ∧
      let s := started 0x00010018#32 (someArgs 2) (at_ 0x100 [0x41#8, 0x61#8])
      s.len3 ≤ 128 ∧ Fits s.addr0 s.len3 ∧ Fits s.addr2 256 ∧
        ¬ ((s.mem.readN s.addr0 s.len3).flatMap (slotsOf true)).Nodup := by decide +kernel

/-- For each clause, a buffer whose last byte is one past the top, the buffers before it ending at the top. -/
theorem witness_BuffersPastTheTopAreBadAddresses :
    (let s := readyOn ⟨0xFFFFFFF1, 0, 0, 16, 0, 0⟩;
      (legalKeyLength s.len3 = true ∧ ¬ Fits s.addr0 s.len3) ∧ (s.aesCtx 0).valid = true ∧ ¬ Fits s.addr0 16) ∧
    (let s := readyOn ⟨0xFFFFFFF0, 0xFFFFFFF1, 0, 16, 0, 0⟩; Fits s.addr0 16 ∧ ¬ Fits s.addr1 16 ∧ 16 ≤ s.len3) ∧
    (let s := readyOn ⟨0xFFFFFFF0, 0xFFFFFFF0, 0xFFFFFFF1, 31, 0, 0⟩;
      Fits s.addr0 16 ∧ Fits s.addr1 16 ∧ ¬ Fits s.addr2 16 ∧ 16 ≤ s.len3 ∧ 16 * (s.len3 / 16) = 16) ∧
    (let s := readyOn ⟨0xFFFFFFE1, 0, 0, 32, 0, 0⟩; 16 ≤ s.len3 ∧ ¬ Fits s.addr0 (16 * (s.len3 / 16)) ∧ Fits s.addr0 16) ∧
    (let s := readyOn ⟨0, 0, 0xFFFFFF51, 0, 0, 0⟩;
      (s.aesCtx 0).valid = true ∧ ¬ Fits s.addr2 (16 * ((s.aesCtx 0).nr.toNat + 1))) ∧
    (let s := readyOn ⟨0xFFFFFF81, 0, 0, 0, 0, 0⟩; 1 ≤ (7 : BitVec 3).toNat ∧ ¬ Fits s.addr0 (2 ^ (7 : BitVec 3).toNat)) ∧
    (let s := readyOn ⟨0xFFFFFF81, 0, 0, 128, 0, 0⟩; s.len3 ≤ 128 ∧ ¬ Fits s.addr0 s.len3) ∧
    (let s := readyOn ⟨0xFFFFFF80, 0, 0xFFFFFF01, 128, 0, 0⟩; s.len3 ≤ 128 ∧ Fits s.addr0 s.len3 ∧ ¬ Fits s.addr2 256) ∧
    (let s := readyOn ⟨0xFFFFFF01, 0, 0, 0, 0, 0⟩; 1 ≤ (1 : BitVec 3).toNat ∧ ¬ Fits s.addr0 256) ∧
    (let s := readyOn ⟨0xFFFFFF02, 0, 0, 255, 255, 1⟩; s.len3 ≤ 255 ∧ s.len4 ≤ 255 ∧ ¬ Fits s.addr0 s.len3) ∧
    (let s := readyOn ⟨0xFFFFFF01, 0xFFFFFF02, 0, 255, 255, 1⟩;
      s.len3 ≤ 255 ∧ s.len4 ≤ 255 ∧ Fits s.addr0 s.len3 ∧ ¬ Fits s.addr1 s.len4) ∧
    let s := readyOn ⟨0xFFFFFFFF, 0, 0, 2, 0, 0⟩
    ¬ Fits s.addr0 s.len3 ∧ (s.encoder 0).valid = true ∧ (s.decoder 0).valid = true ∧ (s.grouper 0).valid = true := by
  decide +kernel

/-- A key of each length; the first and last word before and after `Nk`. -/
theorem witness_KeyExpansionFollowsRecurrence :
    (legalKeyLength (countUp 16).length = true ∧ 3 < (countUp 16).length / 4 ∧ 4 ≤ 4 ∧ 43 < 4 * ((countUp 16).length / 4 + 7)) ∧
      legalKeyLength (countUp 24).length = true ∧ legalKeyLength (countUp 32).length = true := by decide

/-- The first and last word of the ends and of the interior, for 10 rounds. -/
theorem witness_InverseScheduleReversesRounds :
    (0 < 4 * (10 + 1) ∧ (0 < 4 ∨ 4 * 10 ≤ 0)) ∧ (43 < 4 * (10 + 1) ∧ (43 < 4 ∨ 4 * 10 ≤ 43)) ∧
      (4 ≤ 4 ∧ 4 < 4 * 10) ∧ 4 ≤ 39 ∧ 39 < 4 * 10 := by decide

/-- A block of 16 bytes, and a context for each direction. -/
theorem witness_BlockCipherIsFips197 :
    plaintext.length = 16 ∧ (keyedContext .encrypt (countUp 16)).dir = .encrypt ∧
      (keyedContext .decrypt (countUp 16)).dir = .decrypt := by decide +kernel

theorem witness_SetKeyLoadsSchedule :
    (0 : BitVec 4).toNat < Config.params.nAes ∧ Started (ready 0x00000001#32 16) ∧
      legalKeyLength (ready 0x00000001#32 16).len3 = true ∧ Fits (ready 0x00000001#32 16).addr0 (ready 0x00000001#32 16).len3 := by
  decide +kernel

theorem witness_ReadRkWritesSchedule :
    let s := ready 0x00000004#32 0
    Started s ∧ s.mem.Wf ∧ (s.aesCtx 0).valid = true ∧ (s.aesCtx 0).nr.toNat ≤ 14 ∧
      Fits s.addr2 (16 * ((s.aesCtx 0).nr.toNat + 1)) := by decide +kernel

theorem witness_ClearKeyEmptiesContext :
    (0 : BitVec 4).toNat < Config.params.nAes ∧ Started (ready 0x00000005#32 0) := by decide +kernel

theorem witness_ProcessBlockWritesCipher :
    let s := ready 0x00010002#32 0
    Started s ∧ s.mem.Wf ∧ (s.aesCtx 0).valid = true ∧ Fits s.addr0 16 ∧ (true = true → Fits s.addr1 16) ∧ Fits s.addr2 16 := by
  decide +kernel

theorem witness_DecryptionUndoesEncryption :
    legalKeyLength (countUp 16).length = true ∧ legalKeyLength (countUp 32).length = true ∧ plaintext.length = 16 := by decide

theorem witness_CounterIncrementAddsOne : (8 = 8 ∨ 8 = 16) ∧ (16 = 8 ∨ 16 = 16) ∧ (countUp 16).length = 16 := by decide

/-- Below one block, where nothing is checked, and with three blocks and a tail. -/
theorem witness_ProcessBlocksCompletes :
    let s := ready 0x00090003#32 15
    let t := ready 0x00090003#32 63
    (Started s ∧ (s.aesCtx 0).valid = true ∧ s.latch.k = 0 ∧ ¬ 16 ≤ s.len3) ∧
      Started t ∧ (t.aesCtx 0).valid = true ∧ t.latch.k = 0 ∧ Fits t.addr0 16 ∧ Fits t.addr1 (16 * (t.len3 / 16)) ∧
      Fits t.addr2 (16 * (t.len3 / 16)) := by decide +kernel

/-- At the least and the greatest length. -/
theorem witness_OneBlockBulkCommand :
    let s := ready 0x000F0003#32 16
    let t := ready 0x000F0003#32 31
    (Started s ∧ (s.aesCtx 0).valid = true ∧ s.latch.k = 0 ∧ 16 ≤ s.len3 ∧ s.len3 < 32 ∧ Fits s.addr0 16 ∧ Fits s.addr1 16 ∧
      Fits s.addr2 16) ∧ Started t ∧ 16 ≤ t.len3 ∧ t.len3 < 32 := by decide +kernel

theorem witness_BulkCommandGoesBlockByBlock :
    let s := ready 0x00040003#32 32
    (s.aesCtx 0).valid = true ∧ s.latch.k = 0 ∧ 16 ≤ s.len3 ∧ Fits s.addr0 16 ∧ Fits s.addr2 16 ∧
      exec (.aesProcessBlocks 0 false false true false) s
        = .next ((bulkLoop (s.aesCtx 0) ⟨false, false, true, false⟩ 2 s).finish 0) := by
  refine ⟨rfl, rfl, by decide +kernel, by decide +kernel, by decide +kernel, rfl⟩

theorem witness_CounterModeUsesSuccessiveCounters :
    let s := ready 0x00090003#32 32
    s.mem.Wf ∧ (s.aesCtx 0).valid = true ∧ s.latch.k = 0 ∧ Fits s.addr0 16 ∧ Fits s.addr1 (16 * (s.len3 / 16)) ∧
      Fits s.addr2 (16 * (s.len3 / 16)) ∧ Disjoint s.addr0 16 s.addr2 (16 * (s.len3 / 16)) ∧
      Disjoint s.addr1 (16 * (s.len3 / 16)) s.addr2 (16 * (s.len3 / 16)) ∧
      Disjoint s.addr1 (16 * (s.len3 / 16)) s.addr0 16 ∧ 1 < s.len3 / 16 ∧
      exec (.aesProcessBlocks 0 true false false true) s
        = .next ((bulkLoop (s.aesCtx 0) ⟨true, false, false, true⟩ 2 s).finish 0) := by
  refine ⟨by decide +kernel, rfl, rfl, by decide +kernel, by decide +kernel, by decide +kernel, by decide +kernel,
    by decide +kernel, by decide +kernel, by decide +kernel, rfl⟩

/-- Each of the three puts answers a next state on these operands. -/
theorem witness_PutsTouchOnlyTheirInstance :
    (∃ t, exec (.bencPut 0 true 1#8) (ready 0x01010011#32 2) = .next t) ∧
      (∃ t, exec (.bdecPut 0 true 1#8) (ready 0x0101001A#32 2) = .next t) ∧
      ∃ t, exec (.grpPut 0 true 1#8) (ready 0x01010021#32 2) = .next t := ⟨⟨_, rfl⟩, ⟨_, rfl⟩, ⟨_, rfl⟩⟩

/-- The encoder of 95_test_vectors.md's Base64 vectors is legal. -/
theorem base64_inv : base64.Inv := configuredEncoder_inv 6 true _ _ (by decide) (by decide) (by decide)

/-- A pending block of eight symbols of which the sink takes seven; an idle encoder whose block the first
byte of two, and the only byte of one, fills; a message of two bytes that fills no block. -/
theorem witness_EncoderPutStalls :
    (let s := withEncoder (ready 0x00000011#32 2) smallEncoder.openBlock [7];
      (0 : BitVec 4).toNat < Config.params.nBenc ∧ Started s ∧ s.latch.pos = 0 ∧ Fits s.addr0 s.len3 ∧
        (s.encoder 0).valid = true ∧ (s.encoder 0).fsm ≠ .idle ∧
        nextAnswer .encoder 0 (s.portE 0)
          < (((s.encoder 0).outBuf.toList.take (s.encoder 0).pendLen).drop (s.encoder 0).pendOff).length) ∧
    (smallEncoder.Inv ∧ ∀ n ∈ [1, 2],
      let s := withEncoder (ready 0x00000011#32 n) smallEncoder [7]
      Started s ∧ s.latch.pos = 0 ∧ Fits s.addr0 s.len3 ∧ (s.encoder 0).valid = true ∧ s.encoder 0 = smallEncoder ∧
        smallEncoder.fsm = .idle ∧ 1 ≤ s.len3 ∧ (heldBits smallEncoder).length + 8 * 1 = smallEncoder.obs * smallEncoder.b ∧
        nextAnswer .encoder 0 (s.portE 0) < smallEncoder.obs) ∧
    base64.Inv ∧
      (let s := withEncoder (ready 0x01000011#32 2) base64 [3];
      Started s ∧ s.latch.pos = 0 ∧ Fits s.addr0 s.len3 ∧ base64.valid = true ∧ base64.fsm = .idle ∧
        (heldBits base64).length + 8 * s.len3 < base64.obs * base64.b ∧
        nextAnswer .encoder 0 (s.portE 0) < (padded base64.padEn base64.padByte base64.obs
          (symbolsOfBits base64.b base64.alphabet.toList
            (heldBits base64 ++ bitsOf ((s.mem.readN s.addr0 s.len3).take s.len3)))).length) := by
  refine ⟨by decide +kernel, ⟨smallEncoder_inv, fun n hn => ?_⟩, base64_inv, by decide +kernel⟩
  simp only [List.mem_cons, List.not_mem_nil, or_false] at hn
  rcases hn with rfl | rfl <;> exact ⟨⟨rfl, rfl⟩, rfl, by decide +kernel, rfl, rfl, rfl, by decide +kernel, by decide +kernel,
    by decide +kernel⟩

/-- The decoder's units of the next witness: `"0"` and `"1"` are its symbols, and the Base64 table. -/
def base64Decoder : Decoder := configuredDecoder 6 base64Table

theorem base64Decoder_inv : base64Decoder.Inv := configuredDecoder_inv 6 _ (by decide) (by decide)

/-- A pending byte that the sink does not take; eight symbols that fill a byte; two symbols that fill no
group of three bytes but one byte of it. -/
theorem witness_DecoderPutStalls :
    (let s := withDecoder (ready 0x0000001A#32 2) smallDecoder.openBlock [0];
      (0 : BitVec 4).toNat < Config.params.nBdec ∧ Started s ∧ s.latch.pos = 0 ∧ Fits s.addr0 s.len3 ∧
        (s.decoder 0).valid = true ∧ (s.decoder 0).fsm ≠ .idle ∧
        nextAnswer .decoder 0 (s.portD 0)
          < (((s.decoder 0).outBuf.toList.take (s.decoder 0).pendLen).drop (s.decoder 0).pendOff).length) ∧
    (smallDecoder.Inv ∧
      let s := { withDecoder (ready 0x0000001A#32 8) smallDecoder [0] with mem := at_ 0x100 (List.replicate 8 0x30#8) }
      let bits (c : Nat) := heldByteBits smallDecoder
        ++ decodedBits smallDecoder.b smallDecoder.lookup.toList ((s.mem.readN s.addr0 s.len3).take c)
      Started s ∧ s.latch.pos = 0 ∧ Fits s.addr0 s.len3 ∧ smallDecoder.valid = true ∧ smallDecoder.fsm = .idle ∧
        8 ≤ s.len3 ∧ (bits (8 - 1)).length < 8 * smallDecoder.obs ∧ (bits 8).length = 8 * smallDecoder.obs ∧
        nextAnswer .decoder 0 (s.portD 0) < smallDecoder.obs) ∧
    base64Decoder.Inv ∧
      let s := { withDecoder (ready 0x0100001A#32 2) base64Decoder [0] with mem := at_ 0x100 [0x54#8, 0x51#8] }
      let bits := heldByteBits base64Decoder
        ++ decodedBits base64Decoder.b base64Decoder.lookup.toList ((s.mem.readN s.addr0 s.len3).take s.len3)
      Started s ∧ s.latch.pos = 0 ∧ Fits s.addr0 s.len3 ∧ base64Decoder.valid = true ∧ base64Decoder.fsm = .idle ∧
        bits.length < 8 * base64Decoder.obs ∧ nextAnswer .decoder 0 (s.portD 0) < (wholeBytes bits).length :=
  ⟨by decide +kernel, ⟨smallDecoder_inv, by decide +kernel⟩, base64Decoder_inv, by decide +kernel⟩

/-- A full group, before its separator. -/
def fullGrouper : Grouper := { smallGrouper with counter := 2 }

theorem fullGrouper_inv : fullGrouper.Inv := by
  obtain ⟨h1, h2, h3, h4, h5, h6, h7, h8⟩ := smallGrouper_inv
  exact ⟨nofun, h2, h3, h4, by decide, h6, nofun, nofun⟩

/-- A pending terminator that the sink does not take; a chunk of two bytes of which it takes one, with
grouping and without; a separator and a terminator that it does not take. -/
theorem witness_GrouperPutStalls :
    (let s := withGrouper (ready 0x00000021#32 2) (smallGrouper.openEnd 2) [0];
      (0 : BitVec 4).toNat < Config.params.nGrp ∧ Started s ∧ s.latch.pos = 0 ∧ Fits s.addr0 s.len3 ∧
        (s.grouper 0).valid = true ∧ (s.grouper 0).fsm ≠ .idle ∧
        nextAnswer .grouper 0 (s.portG 0)
          < (((s.grouper 0).term.toList.take (s.grouper 0).termLen).drop (s.grouper 0).pendOff).length) ∧
    (let s := withGrouper (ready 0x00000021#32 2) smallGrouper [1];
      let z := withGrouper (ready 0x00000021#32 2) (configuredGrouper 0 [] []) [1];
      ((s.grouper 0).fsm = .idle ∧ (s.grouper 0).counter < (s.grouper 0).groupSize.toNat ∧
        nextAnswer .grouper 0 (s.portG 0) < min s.len3 ((s.grouper 0).groupSize.toNat - (s.grouper 0).counter)) ∧
      (z.grouper 0).groupSize.toNat = 0 ∧ nextAnswer .grouper 0 (z.portG 0) < z.len3) ∧
    (fullGrouper.Inv ∧
      let s := withGrouper (ready 0x00000021#32 1) fullGrouper [0]
      fullGrouper.fsm = .idle ∧ 0 < fullGrouper.groupSize.toNat ∧ fullGrouper.counter = fullGrouper.groupSize.toNat ∧
        0 < s.len3 ∧ nextAnswer .grouper 0 (s.portG 0) < fullGrouper.sepLen) ∧
    smallGrouper.Inv ∧
      let s := withGrouper (ready 0x01000021#32 0) smallGrouper [0]
      smallGrouper.fsm = .idle ∧ s.len3 = 0 ∧ nextAnswer .grouper 0 (s.portG 0) < smallGrouper.termLen :=
  ⟨by decide +kernel, by decide +kernel, ⟨fullGrouper_inv, by decide +kernel⟩, smallGrouper_inv, by decide +kernel⟩

/-- For each unit a pending end of message, not yet offered, taken whole: nothing for the codecs, which hold
nothing, and one byte for the Grouper. -/
theorem witness_PendingMessageEndIsCompletedAlone :
    (let s := withGrouper (withDecoder (withEncoder (ready 0x00000021#32 2) (smallEncoder.openEnd 2) [0])
        (smallDecoder.openEnd 2) [0]) (smallGrouper.openEnd 2) [1];
      Started s ∧ s.latch.pos = 0 ∧ Fits s.addr0 s.len3 ∧
        ((s.encoder 0).valid = true ∧ (s.encoder 0).fsm = .pendEom ∧
          (s.encoder 0).pendLen - (s.encoder 0).pendOff ≤ nextAnswer .encoder 0 (s.portE 0)) ∧
        ((s.decoder 0).valid = true ∧ (s.decoder 0).fsm = .pendEom ∧
          (s.decoder 0).pendLen - (s.decoder 0).pendOff ≤ nextAnswer .decoder 0 (s.portD 0)) ∧
        (s.grouper 0).valid = true ∧ (s.grouper 0).fsm = .pendTerm ∧
          (s.grouper 0).termLen - (s.grouper 0).pendOff ≤ nextAnswer .grouper 0 (s.portG 0)) ∧
      (smallEncoder.openEnd 2).Inv ∧ (smallDecoder.openEnd 2).Inv ∧ (smallGrouper.openEnd 2).Inv := by
  refine ⟨by decide +kernel, ?_, ?_, ?_⟩
  · obtain ⟨h1, h2, h3, h4, h5, h6, h7, h8, h9, h10, h11, h12, h13⟩ := smallEncoder_inv
    exact ⟨nofun, h2, h3, h4, by decide, nofun, nofun, nofun, nofun, nofun, nofun, by decide, nofun⟩
  · obtain ⟨h1, h2, h3, h4, h5, h6, h7, h8, h9, h10⟩ := smallDecoder_inv
    exact ⟨nofun, h2, h3, nofun, nofun, nofun, nofun, nofun, by decide, nofun⟩
  · obtain ⟨h1, h2, h3, h4, h5, h6, h7, h8⟩ := smallGrouper_inv
    exact ⟨nofun, h2, h3, h4, h5, nofun, nofun, fun _ => ⟨by decide, by decide⟩⟩

/-- A sink that takes all at once and one that takes one byte at a time. -/
theorem witness_SinkPaceDoesNotMatter :
    let z : Nat → Nat := fun _ => 0
    (smallEncoder.Inv ∧ (putMessage encoderUnit encoderBody smallEncoder [0x41#8] true 1 z [8, 0]).1 = .go ∧
        (putMessage encoderUnit encoderBody smallEncoder [0x41#8] true 1 z (List.replicate 9 1)).1 = .go) ∧
      (smallDecoder.Inv ∧ (putMessage decoderUnit decoderBody smallDecoder [0x30#8] true 1 z [8]).1 = .go ∧
        (putMessage decoderUnit decoderBody smallDecoder [0x30#8] true 1 z [0, 1]).1 = .go) ∧
      smallGrouper.Inv ∧ (putMessage grouperUnit grouperBody smallGrouper [0x41#8, 0x42#8] true 1 z [8, 8]).1 = .go ∧
        (putMessage grouperUnit grouperBody smallGrouper [0x41#8, 0x42#8] true 1 z [1, 0, 1, 0, 1]).1 = .go :=
  ⟨⟨smallEncoder_inv, by decide +kernel, by decide +kernel⟩, ⟨smallDecoder_inv, by decide +kernel, by decide +kernel⟩,
    smallGrouper_inv, by decide +kernel, by decide +kernel⟩

section Sessions

variable {U : Type} {u : PutUnit U} {body : PutJob → PutRun U → Flow × PutRun U} {unit : U}

/-- A last put that goes through. -/
theorem session_last {l : List Byte} {blocking : Bool} {answers : List Nat}
    (h : (putMessage u body unit l blocking 1 (fun _ => 0) answers).1 = .go) : ∃ v p, Session u body 1 unit l v p :=
  ⟨_, _, .last _ _ _ blocking 1 (fun _ => 0) answers _ _ (.inl rfl) (by rw [← h])⟩

/-- A non-blocking put of a piece that stalls, or goes through with the message not ended, before the rest. -/
theorem session_more {piece rest : List Byte} {answers : List Nat}
    (h : let r := putMessage u body unit piece false 0 (fun _ => 0) answers
      (r.1 ≠ .go ∨ ¬ EndPending u unit) ∧ ∃ v p, Session u body 1 r.2.1 ((piece ++ rest).drop r.2.2.1) v p) :
    ∃ v p, Session u body 1 unit (piece ++ rest) v p := by
  obtain ⟨hc, v, p, hs⟩ := h
  exact ⟨_, _, .more _ _ _ _ _ false 0 (fun _ => 0) answers _ _ _ _ (.inl rfl) rfl (hc.imp_right fun h => ⟨rfl, h⟩) hs⟩

end Sessions

/-- For each unit, a message brought in by one put and by two, the first of which stalls or ends within the
message. -/
theorem witness_SplittingDoesNotMatter :
    (smallEncoder.Inv ∧ smallEncoder.valid = true ∧ smallEncoder.fsm = .idle ∧
      (∃ x p, Session encoderUnit encoderBody 1 smallEncoder [0x41#8] x p) ∧
      ∃ x p, Session encoderUnit encoderBody 1 smallEncoder ([0x41#8] ++ []) x p) ∧
    (smallDecoder.Inv ∧ smallDecoder.valid = true ∧ smallDecoder.fsm = .idle ∧
      (∃ x p, Session decoderUnit decoderBody 1 smallDecoder [0x30#8, 0x31#8] x p) ∧
      ∃ x p, Session decoderUnit decoderBody 1 smallDecoder ([0x30#8] ++ [0x31#8]) x p) ∧
    smallGrouper.Inv ∧ smallGrouper.valid = true ∧ smallGrouper.fsm = .idle ∧
      (∃ x p, Session grouperUnit grouperBody 1 smallGrouper [0x41#8, 0x42#8, 0x43#8] x p) ∧
      ∃ x p, Session grouperUnit grouperBody 1 smallGrouper ([0x41#8, 0x42#8] ++ [0x43#8]) x p := by
  refine ⟨⟨smallEncoder_inv, rfl, rfl, session_last (blocking := true) (answers := [8, 0]) (by decide +kernel),
      session_more (answers := [3]) ⟨.inl (by decide +kernel),
        session_last (blocking := true) (answers := [5, 0]) (by decide +kernel)⟩⟩,
    ⟨smallDecoder_inv, rfl, rfl, session_last (blocking := true) (answers := [0]) (by decide +kernel),
      session_more (answers := []) ⟨.inr (by decide +kernel),
        session_last (blocking := true) (answers := [0]) (by decide +kernel)⟩⟩,
    smallGrouper_inv, rfl, rfl, session_last (blocking := true) (answers := [9, 9, 9, 9]) (by decide +kernel),
    session_more (answers := [1]) ⟨.inl (by decide +kernel),
      session_last (blocking := true) (answers := [9, 9, 9, 9]) (by decide +kernel)⟩⟩

theorem witness_BlockSizesAreAsTabulated : (1 ≤ 1 ∧ 1 ≤ 7) ∧ 1 ≤ 7 ∧ 7 ≤ 7 := by decide

/-- `b = 1` and `b = 7`, with an alphabet that ends at the top of memory. -/
theorem witness_BencInitConfiguresEncoder :
    let s := started 0x000F0010#32 ⟨0xFFFFFF80#32, 0, 0, 0, 0, 0⟩ []
    (0 : BitVec 4).toNat < Config.params.nBenc ∧ Started s ∧ 1 ≤ (1#3).toNat ∧ 1 ≤ (7#3).toNat ∧
      Fits s.addr0 (2 ^ (7#3).toNat) ∧ Fits s.addr0 (2 ^ (1#3).toNat) := by decide +kernel

theorem witness_PackByteAppendsBits : smallEncoder.Inv ∧ smallEncoder.valid = true ∧ smallEncoder.fsm = .idle :=
  ⟨smallEncoder_inv, rfl, rfl⟩

theorem witness_EncoderEncodesWholeMessages :
    let s := ready 0x01010011#32 2
    (0 : BitVec 4).toNat < Config.params.nBenc ∧ Started s ∧ s.latch.pos = 0 ∧ Fits s.addr0 s.len3 ∧ 1 ≤ (1#8 : Byte).toNat ∧
      [0x30#8, 0x31#8].length = 2 ^ 1 ∧ s.encoder 0 = configuredEncoder 1 true 0x3D#8 [0x30#8, 0x31#8] ∧
      TakesAll (s.portE 0) (s.len3 + 2) 8 := by
  refine ⟨by decide, ⟨rfl, rfl⟩, rfl, by decide +kernel, by decide, rfl, rfl, by decide +kernel⟩

theorem witness_BencPutCompletes :
    let s := ready 0x01010011#32 2
    ((0 : BitVec 4).toNat < Config.params.nBenc ∧ Started s ∧ s.latch.pos = 0 ∧ (s.encoder 0).valid = true ∧
      Fits s.addr0 s.len3 ∧ TakesAll (s.portE 0) (s.len3 + 2) 8) ∧ (s.encoder 0).Inv :=
  ⟨by decide +kernel, smallEncoder_inv⟩

theorem witness_BuildLookupWritesTable :
    let s := ready 0x00010018#32 2
    Started s ∧ s.mem.Wf ∧ s.len3 ≤ 128 ∧ Fits s.addr0 s.len3 ∧ Fits s.addr2 256 ∧
      ((s.mem.readN s.addr0 s.len3).flatMap (slotsOf true)).Nodup := by decide +kernel

/-- A table that ends at the top of memory. -/
theorem witness_BdecInitConfiguresDecoder :
    let s := started 0x000F0019#32 ⟨0xFFFFFF00#32, 0, 0, 0, 0, 0⟩ []
    (0 : BitVec 4).toNat < Config.params.nBdec ∧ Started s ∧ 1 ≤ (1#3).toNat ∧ 1 ≤ (7#3).toNat ∧ Fits s.addr0 256 := by
  decide +kernel

theorem witness_BdecPutCompletes :
    let s := ready 0x0101001A#32 2
    ((0 : BitVec 4).toNat < Config.params.nBdec ∧ Started s ∧ s.latch.pos = 0 ∧ (s.decoder 0).valid = true ∧
      Fits s.addr0 s.len3 ∧ TakesAll (s.portD 0) (s.len3 + 2) 7) ∧ (s.decoder 0).Inv :=
  ⟨by decide +kernel, smallDecoder_inv⟩

theorem witness_DecoderDecodesWholeMessages :
    let s := withDecoder (ready 0x0101001A#32 2) (configuredDecoder 6 base64Table) (List.replicate 9 300)
    (0 : BitVec 4).toNat < Config.params.nBdec ∧ Started s ∧ s.latch.pos = 0 ∧ Fits s.addr0 s.len3 ∧ 1 ≤ (1#8 : Byte).toNat ∧
      base64Table.length = 256 ∧ s.decoder 0 = configuredDecoder 6 base64Table ∧ TakesAll (s.portD 0) (s.len3 + 2) 7 :=
  ⟨by decide, ⟨rfl, rfl⟩, rfl, by decide +kernel, by decide, by decide +kernel, rfl, by decide +kernel⟩

/-- Two symbols, their table, a padding byte outside it; and for letters, the output in the other case. -/
theorem witness_DecodingUndoesEncoding :
    (1 ≤ 1 ∧ 1 ≤ 7 ∧ [0x30#8, 0x31#8].length = 2 ^ 1 ∧ (∃ table, buildLookup false [0x30#8, 0x31#8] = some table) ∧
      0x3D#8 ∉ [0x30#8, 0x31#8].flatMap (slotsOf false)) ∧
    (∃ table, buildLookup true [0x41#8, 0x42#8] = some table) ∧ 0x3D#8 ∉ [0x41#8, 0x42#8].flatMap (slotsOf true) ∧
      List.Forall₂ (fun c c' => c' ∈ slotsOf true c)
        (outputBytes encoderUnit encoderBody (configuredEncoder 1 true 0x3D#8 [0x41#8, 0x42#8]) [0x03#8])
        [0x61#8, 0x41#8, 0x61#8, 0x61#8, 0x61#8, 0x61#8, 0x62#8, 0x42#8] := by
  refine ⟨⟨by decide, by decide, rfl, Option.isSome_iff_exists.mp (by decide +kernel), by decide⟩,
    Option.isSome_iff_exists.mp (by decide +kernel), by decide, by decide +kernel⟩

/-- Both strings present with a group size, at their greatest length, and neither without one. -/
theorem witness_GrpInitConfiguresGrouper :
    let s := started 0x00030020#32 ⟨0xFFFFFF01#32, 0xFFFFFF01#32, 0, 255, 255, 4⟩ []
    let t := started 0x00000020#32 ⟨0, 0, 0, 256, 256, 0⟩ []
    ((0 : BitVec 4).toNat < Config.params.nGrp ∧ Started s ∧ 0 < s.param5.toNat ∧ s.len3 ≤ 255 ∧ Fits s.addr0 s.len3 ∧
      s.len4 ≤ 255 ∧ Fits s.addr1 s.len4) ∧ Started t ∧ ¬ 0 < t.param5.toNat := by decide +kernel

theorem witness_GrpPutCompletes :
    let s := ready 0x01010021#32 2
    ((0 : BitVec 4).toNat < Config.params.nGrp ∧ Started s ∧ s.latch.pos = 0 ∧ (s.grouper 0).valid = true ∧
      Fits s.addr0 s.len3 ∧ TakesAll (s.portG 0) (2 * s.len3 + 2) (s.len3 + 255)) ∧ (s.grouper 0).Inv :=
  ⟨by decide +kernel, smallGrouper_inv⟩

theorem witness_GrouperSeparatesGroups :
    let s := ready 0x01010021#32 2
    ((0 : BitVec 4).toNat < Config.params.nGrp ∧ Started s ∧ s.latch.pos = 0 ∧ (s.grouper 0).valid = true ∧
      (s.grouper 0).fsm = .idle ∧ (s.grouper 0).counter = 0 ∧ Fits s.addr0 s.len3 ∧ 1 ≤ (1#8 : Byte).toNat ∧
      TakesAll (s.portG 0) (2 * s.len3 + 2) (s.len3 + 255)) ∧ (s.grouper 0).Inv :=
  ⟨by decide +kernel, smallGrouper_inv⟩

/-- Two bytes that end at the top of memory. -/
theorem witness_HostLoadsWhatItStored :
    State.reset.mem.Wf ∧ State.reset.status.busy = false ∧ Fits 0xFFFFFFFE [1#8, 2#8].length := by decide

/-! A legal running state that takes a next step, for the invariants. -/

/-- `AES_CLEAR_KEY` about to run with every unit ready. -/
def running : State := ready 0x00000005#32 0

theorem running_steps : step running = .next ((running.setAesCtx 0 AesCtx.empty).finish 0) := rfl

theorem witness_StepKeepsControlLegal : running.ControlInv ∧ ∃ t, step running = .next t :=
  ⟨⟨fun _ => by decide +kernel, nofun, nofun, by decide, fun h => absurd rfl h⟩, _, running_steps⟩

theorem witness_StepKeepsMemoryCanonical : running.MemoryInv ∧ ∃ t, step running = .next t := by
  refine ⟨?_, _, running_steps⟩
  show Memory.Wf running.mem ∧ ∀ c ∈ running.mem, c.1 < memSize
  decide +kernel

theorem witness_StepKeepsContextsLegal : running.AesInv ∧ ∃ t, step running = .next t := by
  refine ⟨fun c hc => ?_, _, running_steps⟩
  have : c = keyedContext .encrypt (countUp 16) := by simpa [running, ready, withKey, withGrouper, withDecoder, withEncoder] using hc
  exact this ▸ keyedContext_inv _ _ (by decide)

theorem witness_StepKeepsEncodersLegal : running.EncoderInv ∧ ∃ t, step running = .next t := by
  refine ⟨fun e he => ?_, _, running_steps⟩
  have : e = smallEncoder := by simpa [running, ready, withKey, withGrouper, withDecoder, withEncoder] using he
  exact this ▸ smallEncoder_inv

theorem witness_StepKeepsDecodersLegal : running.DecoderInv ∧ ∃ t, step running = .next t := by
  refine ⟨fun d hd => ?_, _, running_steps⟩
  have : d = smallDecoder := by simpa [running, ready, withKey, withGrouper, withDecoder, withEncoder] using hd
  exact this ▸ smallDecoder_inv

theorem witness_StepKeepsGroupersLegal : running.GrouperInv ∧ ∃ t, step running = .next t := by
  refine ⟨fun g hg => ?_, _, running_steps⟩
  have : g = smallGrouper := by simpa [running, ready, withKey, withGrouper, withDecoder, withEncoder] using hg
  exact this ▸ smallGrouper_inv

theorem witness_StepKeepsHistoriesLegal : running.PortInv ∧ ∃ t, step running = .next t := by
  refine ⟨⟨?_, ?_, ?_, ?_, ?_, ?_⟩, _, running_steps⟩ <;>
    simp [running, ready, withKey, withGrouper, withDecoder, withEncoder, Port.Inv, smallEncoder, smallDecoder,
      smallGrouper, configuredEncoder, configuredDecoder, configuredGrouper, Encoder.empty, Decoder.empty, Grouper.empty]

end Sys2Proof.Tests
end

section
/-! SUPPORT. Whose turn a step is (spec/70_reset_and_hazards.md R304, log 4): the equations of `step` for
the three forms of the engine's turn, and the engine's turn on a word that decodes. -/

namespace Sys2Proof.Machine

variable {s : State} {rest : List Input}

theorem step_of_inputs_nil (h : s.inputs = []) : step s = s.engineTurn := by
  simp [step, State.advance, h]

theorem step_of_inputs_cons {a : Input} (h : s.inputs = a :: rest) :
    step s = State.perform { s with inputs := rest } a := by
  simp [step, State.advance, h]

theorem step_of_inputs_engine (h : s.inputs = .engine :: rest) :
    step s = State.engineTurn { s with inputs := rest } :=
  step_of_inputs_cons h

/-- `WAIT` stays listed (R93). -/
theorem step_of_inputs_wait (h : s.inputs = .wait :: rest) (hb : s.status.busy = true) :
    step s = State.engineTurn { s with rdData := s.status.toWord } := by
  rw [step_of_inputs_cons h]
  simp [State.perform, State.readRegister, hb, ← h]

/-- The engine runs the word it has latched (R28). -/
theorem State.engineTurn_of_decode {i : Instr} (hb : s.status.busy = true) (hd : decode s.latch.cmd = .ok i) :
    s.engineTurn = exec i s := by
  simp [State.engineTurn, hb, hd]

/-- A placed word is started, and the next step is the engine's turn on it (log 4). -/
theorem step_withFetchWord (s : State) (n w : Nat) :
    step (s.withFetchWord n w) = (s.startCommand (BitVec.ofNat 32 (w % 2 ^ n))).engineTurn :=
  step_of_inputs_engine rfl

end Sys2Proof.Machine
end

section
/-! PROOF. The statements of spec/00_scope.md. -/

namespace Sys2Proof.Proofs

open Sys2Proof.Machine

/-- Settles O5: each form of the engine's turn is `State.engineTurn` on the state the statement names, and
that turn runs the word the engine has latched. -/
theorem stepRunsDecodedCommand : Obligations.StepRunsDecodedCommand := by
  refine ⟨fun s i hb hd => ⟨fun h => ?noAct, fun rest h => ?engine, fun rest h => ?wait⟩, fun s n w i hd => ?placed⟩
  case noAct => exact (step_of_inputs_nil h).trans (State.engineTurn_of_decode hb hd)
  case engine => exact (step_of_inputs_engine h).trans (State.engineTurn_of_decode hb hd)
  case wait => exact (step_of_inputs_wait h hb).trans (State.engineTurn_of_decode hb hd)
  case placed => exact (step_withFetchWord s n w).trans (State.engineTurn_of_decode rfl hd)

end Sys2Proof.Proofs
end

section
/-! SUPPORT. A step taken apart for the invariants of spec/10_state.md: what a command that raises nothing
changes (`Effect`), what one act or turn of the engine changes (`Act`), each as a closed list of forms, and
that a property which each form keeps is kept by every step. -/

namespace Sys2Proof.Machine

/-! ### What a command changes -/

/-- How `BENC_PUT` runs, on the encoder and port that `INST` names (R196). -/
def State.encoderRun (s : State) (n : BitVec 4) (k : Bool) (m : Byte) : Flow × PutRun Encoder :=
  encoderUnit.run encoderBody (s.putJob .encoder n k m) ⟨s.encoder n, s.portE n, s.latch.pos⟩

/-- How `BDEC_PUT` runs. -/
def State.decoderRun (s : State) (n : BitVec 4) (k : Bool) (m : Byte) : Flow × PutRun Decoder :=
  decoderUnit.run decoderBody (s.putJob .decoder n k m) ⟨s.decoder n, s.portD n, s.latch.pos⟩

/-- How `GRP_PUT` runs. -/
def State.grouperRun (s : State) (n : BitVec 4) (k : Bool) (m : Byte) : Flow × PutRun Grouper :=
  grouperUnit.run grouperBody (s.putJob .grouper n k m) ⟨s.grouper n, s.portG n, s.latch.pos⟩

/-- The state that a command which raises nothing leaves, by what it changes beside `RESULT`, `STATUS` and
the latches: memory, one context or unit, or a unit and its port. -/
inductive Effect (s : State) : State → Prop where
  | memory (m : Memory) (r : Word) : Effect s ((s.setMem m).finish r)
  | context (n : BitVec 4) (c : AesCtx) (r : Word) (hc : c.Inv) : Effect s ((s.setAesCtx n c).finish r)
  | encoderInit (n : BitVec 4) (e : Encoder) (r : Word) (he : e.Inv) : Effect s ((s.setEncoder n e).finish r)
  | decoderInit (n : BitVec 4) (d : Decoder) (r : Word) (hd : d.Inv) : Effect s ((s.setDecoder n d).finish r)
  | grouperInit (n : BitVec 4) (g : Grouper) (r : Word) (hg : g.Inv) :
      Effect s ((s.setGrouper n g).finish r)
  | encoderPut (n : BitVec 4) (k : Bool) (m : Byte) (events : Nat) (hv : (s.encoder n).valid = true) :
      Effect s (((s.setEncoder n (s.encoderRun n k m).2.unit).setPortE n (s.encoderRun n k m).2.port).endPut
        (s.encoderRun n k m).1 (s.encoderRun n k m).2.pos events)
  | decoderPut (n : BitVec 4) (k : Bool) (m : Byte) (events : Nat) (hv : (s.decoder n).valid = true) :
      Effect s (((s.setDecoder n (s.decoderRun n k m).2.unit).setPortD n (s.decoderRun n k m).2.port).endPut
        (s.decoderRun n k m).1 (s.decoderRun n k m).2.pos events)
  | grouperPut (n : BitVec 4) (k : Bool) (m : Byte) (events : Nat) (hv : (s.grouper n).valid = true) :
      Effect s (((s.setGrouper n (s.grouperRun n k m).2.unit).setPortG n (s.grouperRun n k m).2.port).endPut
        (s.grouperRun n k m).1 (s.grouperRun n k m).2.pos events)

theorem AesCtx.empty_inv : AesCtx.empty.Inv where
  unkeyed _ := rfl
  keyed h := nomatch h

/-- Every effect of `EffectOf` is of one of the forms. -/
theorem EffectOf.effect {i : Instr} {s t : State} (h : EffectOf i s t) : Effect s t := by
  cases i with
  | aesSetKey n d =>
    obtain ⟨hl, -, rfl⟩ := h
    exact .context n _ _ (keyedContext_inv d _ (by simpa using hl))
  | aesProcessBlock n x =>
    obtain ⟨-, -, rfl⟩ := h
    exact .memory _ _
  | aesProcessBlocks n x y d c =>
    obtain ⟨-, -, rfl⟩ := h
    rw [bulkLoop_frame]
    exact .memory _ _
  | aesReadRk n =>
    obtain ⟨-, -, rfl⟩ := h
    exact .memory _ _
  | aesClearKey n =>
    obtain rfl : t = _ := h
    exact .context n _ _ AesCtx.empty_inv
  | bencInit n b a p f q =>
    obtain ⟨⟨h1, h7⟩, rfl⟩ := h
    exact .encoderInit n _ _ (configuredEncoder_inv _ _ _ _ h1 h7 (by simp))
  | bencPut n k m =>
    obtain ⟨hv, rfl⟩ := h
    exact .encoderPut n k m _ hv
  | bdecBuildLookup c =>
    obtain ⟨-, l, -, rfl⟩ := h
    exact .memory _ _
  | bdecInit n b l =>
    obtain ⟨⟨h1, h7⟩, rfl⟩ := h
    exact .decoderInit n _ _ (configuredDecoder_inv _ _ h1 h7)
  | bdecPut n k m =>
    obtain ⟨hv, rfl⟩ := h
    exact .decoderPut n k m _ hv
  | grpInit n p q =>
    obtain ⟨hp, hq, rfl⟩ := h
    refine .grouperInit n _ _ (configuredGrouper_inv _ _ _ ?_ ?_)
    · cases p
      · simp
      · simpa using hp rfl
    · cases q
      · simp
      · simpa using hq rfl
  | grpPut n k m =>
    obtain ⟨hv, rfl⟩ := h
    exact .grouperPut n k m _ hv

/-! ### What one act changes -/

/-- The state that one act of an outside agent, or one turn of the engine, leaves, by what it changes; what
the host has read last and the list of acts aside. -/
inductive Act (s : State) : State → Prop where
  | idle : Act s s
  | start (w : Word) (hb : s.status.busy = false) : Act s (s.startCommand w)
  | overrun (v : Bool) : Act s { s with status := { s.status with overrun := v } }
  | args (a : Args) : Act s { s with args := a }
  | read (w : Word) : Act s { s with rdData := w }
  | store (m : Memory) : Act s (s.setMem m)
  | load (l : List Byte) : Act s { s with ldData := l, freeCount := s.freeCount + 1 }
  | sink (q : PortId) (k : Nat) : Act s (s.sinkAnswer q k)
  | reset : Act s s.applyReset
  | raise (code : ErrorCode) (arg : ArgIndex) (hb : s.status.busy = true) (hc : code ≠ .ok) (ha : arg ≠ .nothing) :
      Act s (s.raise code arg)
  | effect {t : State} (hb : s.status.busy = true) (h : Effect s t) : Act s t

@[simp] theorem decodeErrorArg_ne_nothing (e : DecodeError) : decodeErrorArg e ≠ .nothing := by
  cases e <;> simp [decodeErrorArg]

/-- The engine's turn is an act. -/
theorem State.engineTurn_act {s t : State} (h : s.engineTurn = .next t) : Act s t := by
  rcases State.engineTurn_cases h with ⟨-, rfl⟩ | ⟨hb, e, -, rfl⟩ | ⟨hb, i, -, hi⟩
  · exact .idle
  · exact .raise _ _ hb (by simp) (decodeErrorArg_ne_nothing e)
  · rcases exec_raise_or_effect hi with ⟨code, arg, hc, ha, rfl⟩ | he
    · exact .raise code arg hb hc ha
    · exact .effect hb he.effect

/-- The argument registers, the list of acts and what the host has read last replaced: what the engine does not
look at (R21). -/
def State.withHost (s : State) (args : Args) (inputs : List Input) (rd : Word) : State :=
  { s with args := args, inputs := inputs, rdData := rd }

/-- Every step is one act. -/
theorem step_act {s t : State} (h : step s = .next t) : ∃ inputs rd, Act (s.withHost s.args inputs rd) t := by
  rcases step_cases h with ⟨-, h⟩ | ⟨a, rest, -, h⟩
  · exact ⟨s.inputs, s.rdData, State.engineTurn_act h⟩
  · rcases State.perform_cases h with ⟨o, w, rfl⟩ | ⟨o, rfl⟩ | ⟨a, l, -, rfl⟩ | ⟨l, rfl⟩ | ⟨is, rd, h⟩ | ⟨q, k, rfl⟩ | rfl
    · refine ⟨rest, s.rdData, ?_⟩
      rcases State.writeRegister_cases (s.withHost s.args rest s.rdData) o w with ⟨hb, e⟩ | ⟨v, e⟩ | ⟨a, e⟩
      · exact e ▸ .start w hb
      · exact e ▸ .overrun v
      · exact e ▸ .args a
    · exact ⟨rest, s.rdData, .read _⟩
    · exact ⟨rest, s.rdData, .store _⟩
    · exact ⟨rest, s.rdData, .load l⟩
    · exact ⟨is, rd, State.engineTurn_act h⟩
    · exact ⟨rest, s.rdData, .sink q k⟩
    · exact ⟨rest, s.rdData, .reset⟩

/-- What every act keeps, every step keeps. -/
theorem step_keeps {I : State → Prop} (hhost : ∀ s args inputs rd, I s → I (s.withHost args inputs rd))
    (hact : ∀ s t, I s → Act s t → I t) (s t : State) (hs : I s) (h : step s = .next t) : I t := by
  obtain ⟨inputs, rd, ha⟩ := step_act h
  exact hact _ t (hhost s s.args inputs rd hs) ha

/-! ### The end of a put, by field -/

variable (s : State) (f : Flow) (pos events : Nat)

@[simp] theorem State.endPut_aes : (s.endPut f pos events).aes = s.aes := by cases f <;> rfl
@[simp] theorem State.endPut_enc : (s.endPut f pos events).enc = s.enc := by cases f <;> rfl
@[simp] theorem State.endPut_dec : (s.endPut f pos events).dec = s.dec := by cases f <;> rfl
@[simp] theorem State.endPut_grp : (s.endPut f pos events).grp = s.grp := by cases f <;> rfl
@[simp] theorem State.endPut_outE : (s.endPut f pos events).outE = s.outE := by cases f <;> rfl
@[simp] theorem State.endPut_outD : (s.endPut f pos events).outD = s.outD := by cases f <;> rfl
@[simp] theorem State.endPut_outG : (s.endPut f pos events).outG = s.outG := by cases f <;> rfl
@[simp] theorem State.endPut_args : (s.endPut f pos events).args = s.args := by cases f <;> rfl
@[simp] theorem State.endPut_inputs : (s.endPut f pos events).inputs = s.inputs := by cases f <;> rfl
@[simp] theorem State.endPut_rdData : (s.endPut f pos events).rdData = s.rdData := by cases f <;> rfl
@[simp] theorem State.endPut_mem : (s.endPut f pos events).mem = s.mem := by cases f <;> rfl

/-! ### A reset and a sink's answer, by field -/

variable (q : PortId) (k : Nat)

@[simp] theorem State.applyReset_aes : s.applyReset.aes = State.reset.aes := by
  rcases State.applyReset_cases s with h | ⟨i, u, n, -, -, h⟩ <;> simp [h]
@[simp] theorem State.applyReset_enc : s.applyReset.enc = State.reset.enc := by
  rcases State.applyReset_cases s with h | ⟨i, u, n, -, -, h⟩ <;> simp [h]
@[simp] theorem State.applyReset_dec : s.applyReset.dec = State.reset.dec := by
  rcases State.applyReset_cases s with h | ⟨i, u, n, -, -, h⟩ <;> simp [h]
@[simp] theorem State.applyReset_grp : s.applyReset.grp = State.reset.grp := by
  rcases State.applyReset_cases s with h | ⟨i, u, n, -, -, h⟩ <;> simp [h]

@[simp] theorem State.applyReset_status : s.applyReset.status = Status.zero := by
  rcases State.applyReset_cases s with h | ⟨i, u, n, -, -, h⟩ <;> simp [h]
@[simp] theorem State.applyReset_result : s.applyReset.result = 0 := by
  rcases State.applyReset_cases s with h | ⟨i, u, n, -, -, h⟩ <;> simp [h]
@[simp] theorem State.applyReset_latch : s.applyReset.latch = Latch.idle := by
  rcases State.applyReset_cases s with h | ⟨i, u, n, -, -, h⟩ <;> simp [h]
@[simp] theorem State.applyReset_args : s.applyReset.args = Args.zero := by
  rcases State.applyReset_cases s with h | ⟨i, u, n, -, -, h⟩ <;> simp [h]
@[simp] theorem State.applyReset_mem : s.applyReset.mem = s.tornMemory := by
  rcases State.applyReset_cases s with h | ⟨i, u, n, -, -, h⟩ <;> simp [h]

@[simp] theorem State.sinkAnswer_aes : (s.sinkAnswer q k).aes = s.aes := by cases q <;> rfl
@[simp] theorem State.sinkAnswer_enc : (s.sinkAnswer q k).enc = s.enc := by cases q <;> rfl
@[simp] theorem State.sinkAnswer_dec : (s.sinkAnswer q k).dec = s.dec := by cases q <;> rfl
@[simp] theorem State.sinkAnswer_grp : (s.sinkAnswer q k).grp = s.grp := by cases q <;> rfl
@[simp] theorem State.sinkAnswer_status : (s.sinkAnswer q k).status = s.status := by cases q <;> rfl
@[simp] theorem State.sinkAnswer_result : (s.sinkAnswer q k).result = s.result := by cases q <;> rfl
@[simp] theorem State.sinkAnswer_latch : (s.sinkAnswer q k).latch = s.latch := by cases q <;> rfl

end Sys2Proof.Machine
end

section
/-! SUPPORT. What every put keeps, said once for the three units (spec/44_filter_interface.md R192 to R197):
the events an emission adds are legal, the pending emission moves forward inside its bytes, and a property of
instances that each part of a unit keeps is kept by the whole put. -/

namespace Sys2Proof.Machine

/-! ### Legal events -/

theorem Port.inv_of_append {p p' : Port} (h : p.Inv)
    (he : ∃ es, p'.history = p.history ++ es ∧ ∀ e ∈ es, e.Ok) : p'.Inv := by
  obtain ⟨es, heq, hok⟩ := he
  intro e hmem
  rw [heq] at hmem
  exact (List.mem_append.mp hmem).elim (h e) (hok e)

theorem takenOf_offer_ok (t lvl : Nat) (d : List Byte) (blocking : Bool) (hlvl : lvl ≤ 254) :
    (Event.offer d lvl blocking (takenOf t d)).Ok := ⟨Nat.min_le_right _ _, hlvl⟩

/-- Wherever an emission takes up, it adds legal events only. -/
theorem emitLoop_history (d : List Byte) (lvl : Nat) (blocking : Bool) (sink : Nat → Nat) (drawn : Nat) (ts : List Nat)
    (h : List Event) (off : Nat) (hlvl : lvl ≤ 254) :
    ∃ es, (emitLoop d lvl blocking sink drawn ts h off).2.1.history = h ++ es ∧ ∀ e ∈ es, e.Ok := by
  induction ts generalizing h off with
  | nil =>
    simp only [emitLoop]
    split
    · exact completed_offer_ok _ _ _ _ _ hlvl
    · exact ⟨[_], rfl, by simpa using takenOf_offer_ok _ _ _ _ hlvl⟩
  | cons t ts ih =>
    simp only [emitLoop]
    split
    · exact completed_offer_ok _ _ _ _ _ hlvl
    · split
      · obtain ⟨es, heq, hok⟩ := ih (h ++ [.offer (d.drop off) lvl blocking (takenOf t (d.drop off))])
          (off + takenOf t (d.drop off))
        refine ⟨_ :: es, by rw [heq, List.append_assoc, List.singleton_append], ?_⟩
        exact List.forall_mem_cons.mpr ⟨takenOf_offer_ok _ _ _ _ hlvl, hok⟩
      · exact ⟨[_], rfl, by simpa using takenOf_offer_ok _ _ _ _ hlvl⟩

/-- An emission moves its offset no further than its end. -/
theorem emit_off_le {d : List Byte} {lvl off : Nat} (blocking : Bool) (sink : Nat → Nat) (p : Port) (hoff : off ≤ d.length)
    (hlvl : lvl ≤ 254) : (emit d lvl blocking sink p off).2.2 ≤ d.length :=
  (emitLoop_spec d lvl blocking sink p.drawn p.answers p.history off hoff hlvl).2.1

/-! ### Flushing -/

variable {U : Type} (u : PutUnit U) (j : PutJob) (r : PutRun U)

@[simp] theorem PutUnit.flush_pos : (u.flush j r).2.pos = r.pos := by rw [PutUnit.flush_spec]

@[simp] theorem PutUnit.messageEnd_pos : (u.messageEnd j r).2.pos = r.pos := by
  unfold PutUnit.messageEnd
  split
  · simp
  · rfl

theorem PutUnit.flush_portInv (hlvl : u.pendMel r.unit ≤ 254) (h : r.port.Inv) : (u.flush j r).2.port.Inv := by
  rw [PutUnit.flush_spec]
  exact Port.inv_of_append h (emitLoop_history _ _ _ _ _ _ _ _ hlvl)

/-- Flushing completes the unit when it goes on, and otherwise only moves the offset; inside the emission,
when it was there before. -/
theorem PutUnit.flush_unit :
    ∃ off, (u.pendOff r.unit ≤ (u.pending r.unit).length → u.pendMel r.unit ≤ 254 → off ≤ (u.pending r.unit).length) ∧
      (((u.flush j r).1 = .go ∧ (u.flush j r).2.unit = u.complete (u.setPendOff r.unit off)) ∨
        ((u.flush j r).1 ≠ .go ∧ (u.flush j r).2.unit = u.setPendOff r.unit off)) := by
  rw [PutUnit.flush_spec]
  refine ⟨_, fun hoff hlvl => emit_off_le j.blocking j.sink r.port hoff hlvl, ?_⟩
  by_cases hgo : (emit (u.pending r.unit) (u.pendMel r.unit) j.blocking j.sink r.port (u.pendOff r.unit)).1 = .go
  · exact .inl ⟨hgo, if_pos hgo⟩
  · exact .inr ⟨hgo, if_neg hgo⟩

/-! ### A property of instances -/

/-- A property of instances that the parts of the skeleton which belong to a unit keep. -/
structure PutUnit.Keeps (u : PutUnit U) (I : U → Prop) : Prop where
  pendMel : ∀ x, I x → u.pendMel x ≤ 254
  pendOff : ∀ x, I x → u.idle x = false → u.pendOff x ≤ (u.pending x).length
  setPendOff : ∀ x off, I x → u.idle x = false → off ≤ (u.pending x).length → I (u.setPendOff x off)
  complete : ∀ x off, I x → u.idle x = false → I (u.complete (u.setPendOff x off))
  completeIdle : ∀ x, u.idle (u.complete x) = true
  beginEnd : ∀ x mel, I x → u.idle x = true → mel ≤ 255 → I (u.beginEnd x mel)
  beginEndPending : ∀ x mel, u.idle (u.beginEnd x mel) = false

variable {u j r} {I : U → Prop}

theorem PutUnit.Keeps.flush (hk : u.Keeps I) (hI : I r.unit) (hi : u.idle r.unit = false) :
    I (u.flush j r).2.unit ∧ ((u.flush j r).1 = .go → u.idle (u.flush j r).2.unit = true) := by
  obtain ⟨off, hoff, ⟨-, hu⟩ | ⟨hgo, hu⟩⟩ := u.flush_unit j r
  · rw [hu]
    exact ⟨hk.complete _ _ hI hi, fun _ => hk.completeIdle _⟩
  · rw [hu]
    exact ⟨hk.setPendOff _ _ hI hi (hoff (hk.pendOff _ hI hi) (hk.pendMel _ hI)), fun h => absurd h hgo⟩

theorem PutUnit.Keeps.messageEnd (hk : u.Keeps I) (hmel : j.mel ≤ 255) (hI : I r.unit) (hi : u.idle r.unit = true) :
    I (u.messageEnd j r).2.unit := by
  unfold PutUnit.messageEnd
  split
  · exact (hk.flush (r := { r with unit := u.beginEnd r.unit j.mel }) (hk.beginEnd _ _ hI hi hmel)
      (hk.beginEndPending _ _)).1
  · exact hI

/-- A property of instances that a unit's parts and its body keep is kept by the whole put. -/
theorem PutUnit.Keeps.run {body : PutJob → PutRun U → Flow × PutRun U} (hk : u.Keeps I) (hmel : j.mel ≤ 255)
    (hbody : ∀ r, I r.unit → u.idle r.unit = true →
      I (body j r).2.unit ∧ ((body j r).1 = .go → u.idle (body j r).2.unit = true))
    (h : I r.unit) : I (u.run body j r).2.unit :=
  u.run_keeps body j (P := fun r => I r.unit ∧ u.idle r.unit = true) (Q := fun r => I r.unit)
    (fun _ hP => hP.1) (fun _ hI hi => ⟨hI, hi⟩)
    (fun r hP => ⟨(hbody r hP.1 hP.2).1, fun hgo => ⟨(hbody r hP.1 hP.2).1, (hbody r hP.1 hP.2).2 hgo⟩⟩)
    (fun _ hP => hk.messageEnd hmel hP.1 hP.2)
    (fun _ hI hi => ⟨(hk.flush hI hi).1, fun hgo => ⟨(hk.flush hI hi).1, (hk.flush hI hi).2 hgo⟩⟩) r h

theorem messageEndLevel_le (m : Byte) : messageEndLevel m ≤ 255 := Nat.le_of_lt_succ m.isLt

theorem State.putJob_mel_le (s : State) (w : FilterUnit) (i : BitVec 4) (k : Bool) (m : Byte) :
    (s.putJob w i k m).mel ≤ 255 := messageEndLevel_le m

/-! ### One bit set in a byte (R213, R233) -/

theorem oneBit_toNat_mod (bit : Bool) (k : Nat) : ((if bit then 1#8 else 0#8) <<< k).toNat % 2 ^ k = 0 := by
  cases bit
  · simp
  · by_cases hk : k < 8
    · have h8 : 2 ^ k < 256 := Nat.pow_lt_pow_right (by decide : 1 < 2) hk
      simp [Nat.shiftLeft_eq, Nat.mod_eq_of_lt h8]
    · simp [BitVec.shiftLeft_eq_zero (Nat.le_of_not_lt hk)]

/-- The bits below the one that is set stay 0. -/
theorem setBit_mod (x : Byte) (bit : Bool) (k : Nat) (hx : x.toNat % 2 ^ (k + 1) = 0) :
    (x ||| ((if bit then 1#8 else 0#8) <<< k)).toNat % 2 ^ k = 0 := by
  have hxk : x.toNat % 2 ^ k = 0 := Nat.mod_eq_zero_of_dvd ((pow_dvd_pow 2 k.le_succ).trans (Nat.dvd_of_mod_eq_zero hx))
  rw [BitVec.toNat_or, Nat.or_mod_two_pow, hxk, oneBit_toNat_mod, Nat.or_self]

theorem setBit_lt (x : Byte) (bit : Bool) {k b : Nat} (hk : k < b) (hx : x.toNat < 2 ^ b) :
    (x ||| ((if bit then 1#8 else 0#8) <<< k)).toNat < 2 ^ b := by
  rw [BitVec.toNat_or]
  refine Nat.or_lt_two_pow hx (lt_of_le_of_lt ?_ (Nat.pow_lt_pow_right one_lt_two hk))
  cases bit
  · simp
  · simpa [Nat.shiftLeft_eq] using Nat.mod_le _ _

end Sys2Proof.Machine
end

section
/-! SUPPORT. The encoder's legality through a put (spec/10_state.md R34 to R36, spec/45_basen_encoder.md R212 to
R215): the packing of one bit, of one byte, of the input, and the pending emissions. -/

namespace Sys2Proof.Machine

theorem Encoder.empty_inv : Encoder.empty.Inv where
  unconfigured _ := rfl
  bits h := nomatch h
  alphabetTail j _ := by simp [Encoder.empty]
  noPad _ := rfl
  posLe := Nat.le_refl 0
  idleCursor _ h := nomatch h
  wholeBytes _ := rfl
  symbols _ j h := absurd h (Nat.not_lt_zero j)
  partialSymbol _ := by simp [Encoder.empty]
  unused _ j _ := by simp [Encoder.empty]
  idlePending _ := ⟨rfl, rfl, rfl⟩
  pending := by simp [Encoder.empty]
  pendingBlock h := nomatch h

/-! ### Packing -/

/-- The bits of the current block that are filled: `bytePos` symbols and `bitPos` bits. -/
def Encoder.cursor (e : Encoder) : Nat := e.bytePos * e.b + e.bitPos

/-- The buffer and the cursor while bits are packed: as in a legal idle encoder, but anywhere in a byte, and
up to the full block. -/
structure Encoder.Packing (e : Encoder) : Prop where
  obsLe : e.obs ≤ 8
  bitLt : e.bitPos < e.b
  symbols : ∀ j, j < e.bytePos → (entry e.outBuf j 0).toNat < 2 ^ e.b
  partialLt : (entry e.outBuf e.bytePos 0).toNat < 2 ^ e.b
  partialMod : (entry e.outBuf e.bytePos 0).toNat % 2 ^ (e.b - e.bitPos) = 0
  unused : ∀ j, e.bytePos < j → entry e.outBuf j 0 = 0

/-- The current symbol with one more bit (R213). -/
def Encoder.symbolWith (e : Encoder) (bit : Bool) : Byte :=
  entry e.outBuf e.bytePos 0 ||| ((if bit then 1#8 else 0#8) <<< (e.b - 1 - e.bitPos))

/-- A bit ends its symbol or not. -/
theorem packBit_cases (e : Encoder) (bit : Bool) :
    (e.bitPos + 1 = e.b ∧ packBit e bit =
      { e with outBuf := setEntry e.outBuf e.bytePos (e.symbolWith bit), bytePos := e.bytePos + 1, bitPos := 0 }) ∨
    (e.bitPos + 1 ≠ e.b ∧ packBit e bit =
      { e with outBuf := setEntry e.outBuf e.bytePos (e.symbolWith bit), bitPos := e.bitPos + 1 }) := by
  by_cases h : e.bitPos + 1 = e.b
  · exact .inl ⟨h, if_pos h⟩
  · exact .inr ⟨h, if_neg h⟩

/-- A bit changes the buffer and the cursor only. -/
theorem packBit_frame (e : Encoder) (bit : Bool) :
    ∃ buf p q, packBit e bit = { e with outBuf := buf, bytePos := p, bitPos := q } := by
  rcases packBit_cases e bit with ⟨-, h⟩ | ⟨-, h⟩ <;> exact ⟨_, _, _, h⟩

theorem packBits_frame (bits : List Bool) (e : Encoder) :
    ∃ buf p q, bits.foldl packBit e = { e with outBuf := buf, bytePos := p, bitPos := q } := by
  induction bits generalizing e with
  | nil => exact ⟨e.outBuf, e.bytePos, e.bitPos, rfl⟩
  | cons x xs ih =>
    obtain ⟨buf, p, q, h⟩ := packBit_frame e x
    obtain ⟨buf', p', q', h'⟩ := ih (packBit e x)
    exact ⟨buf', p', q', by rw [List.foldl_cons, h', h]⟩

/-- A bit moves the cursor one on. -/
theorem packBit_cursor (e : Encoder) (bit : Bool) : (packBit e bit).cursor = e.cursor + 1 := by
  rcases packBit_cases e bit with ⟨hb, h⟩ | ⟨-, h⟩ <;> simp only [h, Encoder.cursor]
  · rw [Nat.add_mul]
    omega
  · omega

theorem packBit_packing {e : Encoder} (h : e.Packing) (bit : Bool) (hp : e.bytePos < e.obs) : (packBit e bit).Packing := by
  obtain ⟨hobs, hbit, hsym, hlt, hmod, hun⟩ := h
  have hother : ∀ j, e.bytePos ≠ j →
      entry (setEntry e.outBuf e.bytePos (e.symbolWith bit)) j 0 = entry e.outBuf j 0 :=
    fun j hj => entry_setEntry_other _ _ _ _ _ hj
  have hsame : entry (setEntry e.outBuf e.bytePos (e.symbolWith bit)) e.bytePos 0 = e.symbolWith bit :=
    entry_setEntry_same _ _ _ _ (by omega)
  have hlt' : (entry (setEntry e.outBuf e.bytePos (e.symbolWith bit)) e.bytePos 0).toNat < 2 ^ e.b := by
    rw [hsame]
    exact setBit_lt _ bit (by omega) hlt
  have hmod' : (entry (setEntry e.outBuf e.bytePos (e.symbolWith bit)) e.bytePos 0).toNat %
      2 ^ (e.b - (e.bitPos + 1)) = 0 := by
    rw [hsame, show e.b - (e.bitPos + 1) = e.b - 1 - e.bitPos by omega]
    exact setBit_mod _ bit _ (by rwa [show e.b - 1 - e.bitPos + 1 = e.b - e.bitPos by omega])
  rcases packBit_cases e bit with ⟨-, heq⟩ | ⟨hne, heq⟩ <;> rw [heq]
  · have hnew : entry (setEntry e.outBuf e.bytePos (e.symbolWith bit)) (e.bytePos + 1) 0 = 0 := by
      rw [hother _ (by omega), hun _ (by omega)]
    refine ⟨hobs, Nat.zero_lt_of_lt hbit, fun j hj => ?_, ?_, ?_, fun j hj => ?_⟩
    · rcases Nat.lt_succ_iff_lt_or_eq.mp hj with hj | rfl
      · exact hother j (Nat.ne_of_gt hj) ▸ hsym j hj
      · exact hlt'
    · simp only [hnew]
      exact Nat.two_pow_pos _
    · simp only [hnew]
      exact Nat.zero_mod _
    · exact hother j (Nat.ne_of_lt (Nat.lt_of_succ_lt hj)) ▸ hun j (Nat.lt_of_succ_lt hj)
  · refine ⟨hobs, Nat.lt_of_le_of_ne hbit hne, fun j hj => ?_, hlt', hmod', fun j hj => ?_⟩
    · exact hother j (Nat.ne_of_gt hj) ▸ hsym j hj
    · exact hother j (Nat.ne_of_lt hj) ▸ hun j hj

/-- Bits that fit in the block are packed. -/
theorem packBits_packing (bits : List Bool) {e : Encoder} (h : e.Packing) (hfit : e.cursor + bits.length ≤ e.obs * e.b) :
    (bits.foldl packBit e).Packing ∧ (bits.foldl packBit e).cursor = e.cursor + bits.length := by
  induction bits generalizing e with
  | nil => exact ⟨h, rfl⟩
  | cons x xs ih =>
    have hp : e.bytePos < e.obs := by
      refine Nat.lt_of_mul_lt_mul_right (a := e.b) ?_
      simp only [Encoder.cursor, List.length_cons] at hfit
      omega
    have hframe : (packBit e x).obs * (packBit e x).b = e.obs * e.b := by
      obtain ⟨_, _, _, heq⟩ := packBit_frame e x
      rw [heq]
    have hcur := packBit_cursor e x
    obtain ⟨hpk, hc⟩ := ih (packBit_packing h x hp) (by simp only [List.length_cons] at hfit; omega)
    exact ⟨hpk, by simp only [List.foldl_cons, List.length_cons]; omega⟩

theorem packByte_eq_packBits (e : Encoder) (v : Byte) :
    packByte e v = ([7, 6, 5, 4, 3, 2, 1, 0].map v.getLsbD).foldl packBit e := rfl

/-! ### Legal encoders between the parts of a put -/

/-- A configured legal encoder. -/
def Encoder.Legal (e : Encoder) : Prop := e.Inv ∧ e.valid = true

theorem Encoder.Legal.obsLe {e : Encoder} (h : e.Legal) : e.obs ≤ 8 := by
  obtain ⟨h1, h7, ho, -⟩ := h.1.bits h.2
  exact ho ▸ (blockSizes e.b h1 h7).2.2.1

/-- The block holds whole bytes: `lcm(8, b)` bits (R210). -/
theorem Encoder.Legal.blockBits {e : Encoder} (h : e.Legal) : e.obs * e.b = 8 * decoderBlockSize e.b := by
  obtain ⟨h1, h7, ho, -⟩ := h.1.bits h.2
  rw [ho, (blockSizes e.b h1 h7).1, Nat.mul_comm]

theorem Encoder.Legal.packing {e : Encoder} (h : e.Legal) (hi : e.fsm = .idle) : e.Packing where
  obsLe := h.obsLe
  bitLt := (h.1.bits h.2).2.2.2
  symbols := h.1.symbols hi
  partialLt := (h.1.partialSymbol hi).1
  partialMod := (h.1.partialSymbol hi).2
  unused := h.1.unused hi

/-- An idle encoder has room for one more byte. -/
theorem Encoder.Legal.room {e : Encoder} (h : e.Legal) (hi : e.fsm = .idle) : e.cursor + 8 ≤ e.obs * e.b := by
  have hpos : e.bytePos + 1 ≤ e.obs := h.1.idleCursor hi h.2
  have hmul : (e.bytePos + 1) * e.b ≤ e.obs * e.b := Nat.mul_le_mul_right _ hpos
  have hbit := (h.1.bits h.2).2.2.2
  have hwhole : e.cursor % 8 = 0 := h.1.wholeBytes hi
  have hblock := h.blockBits
  have hlt : e.cursor < e.obs * e.b := by
    unfold Encoder.cursor
    rw [Nat.add_mul] at hmul
    omega
  omega

/-- What a byte leaves of an idle encoder: only the buffer and the cursor have changed, and they are again
between bytes. -/
theorem packByte_spec {e : Encoder} (h : e.Legal) (hi : e.fsm = .idle) (v : Byte) :
    ∃ buf p q, packByte e v = { e with outBuf := buf, bytePos := p, bitPos := q } ∧
      (packByte e v).Packing ∧ p ≤ e.obs ∧ (p * e.b + q) % 8 = 0 := by
  have hroom := h.room hi
  rw [packByte_eq_packBits]
  obtain ⟨hp, hc⟩ := packBits_packing ([7, 6, 5, 4, 3, 2, 1, 0].map v.getLsbD) (h.packing hi) hroom
  obtain ⟨buf, p, q, heq⟩ := packBits_frame ([7, 6, 5, 4, 3, 2, 1, 0].map v.getLsbD) e
  rw [heq] at hp hc ⊢
  have hcur : p * e.b + q = e.cursor + 8 := hc
  have hle : p * e.b ≤ e.obs * e.b := by omega
  refine ⟨buf, p, q, rfl, hp, Nat.le_of_mul_le_mul_right hle (Nat.zero_lt_of_lt (h.packing hi).bitLt), ?_⟩
  rw [hcur, Nat.add_mod_right]
  exact h.1.wholeBytes hi

/-- A byte that does not fill the block leaves its encoder idle and legal. -/
theorem packByte_legal {e : Encoder} (h : e.Legal) (hi : e.fsm = .idle) (v : Byte)
    (hne : (packByte e v).bytePos ≠ (packByte e v).obs) : (packByte e v).Legal ∧ (packByte e v).fsm = .idle := by
  obtain ⟨buf, p, q, heq, hp, hpos, hwhole⟩ := packByte_spec h hi v
  rw [heq] at hp hne ⊢
  have hinv := h.1
  exact
    ⟨⟨{ unconfigured := fun hv => absurd h.2 (by simp [show e.valid = false from hv])
        bits := fun hv => by
          obtain ⟨h1, h7, ho, -⟩ := hinv.bits hv
          exact ⟨h1, h7, ho, hp.bitLt⟩
        alphabetTail := hinv.alphabetTail
        noPad := hinv.noPad
        posLe := hpos
        idleCursor := fun _ _ => Nat.lt_of_le_of_ne hpos hne
        wholeBytes := fun _ => hwhole
        symbols := fun _ => hp.symbols
        partialSymbol := fun _ => ⟨hp.partialLt, hp.partialMod⟩
        unused := fun _ => hp.unused
        idlePending := hinv.idlePending
        pending := hinv.pending
        pendingBlock := hinv.pendingBlock }, h.2⟩, hi⟩

/-- An encoder whose emission is pending, from what it shares with a legal one: the buffer may hold
anything. -/
theorem Encoder.Legal.withPending {e e' : Encoder} (h : e.Legal) (hf : e'.fsm ≠ .idle)
    (hsame : e' = { e with outBuf := e'.outBuf, bytePos := e'.bytePos, bitPos := e'.bitPos, fsm := e'.fsm,
                           pendLen := e'.pendLen, pendOff := e'.pendOff, pendMel := e'.pendMel })
    (hpos : e'.bytePos ≤ e.obs) (hbit : e'.bitPos < e.b)
    (hpend : e'.pendLen ≤ e.obs ∧ e'.pendOff ≤ e'.pendLen ∧ e'.pendMel ≤ 254)
    (hblock : e'.fsm = .pendBlock → e'.pendLen = e.obs ∧ e'.pendMel = 0) : e'.Legal := by
  rw [hsame] at hf ⊢
  exact
    ⟨{  unconfigured := fun hv => absurd h.2 (by simp [show e.valid = false from hv])
        bits := fun hv => by
          obtain ⟨h1, h7, ho, -⟩ := h.1.bits hv
          exact ⟨h1, h7, ho, hbit⟩
        alphabetTail := h.1.alphabetTail
        noPad := h.1.noPad
        posLe := hpos
        idleCursor := fun hi => absurd hi hf
        wholeBytes := fun hi => absurd hi hf
        symbols := fun hi => absurd hi hf
        partialSymbol := fun hi => absurd hi hf
        unused := fun hi => absurd hi hf
        idlePending := fun hi => absurd hi hf
        pending := hpend
        pendingBlock := hblock }, h.2⟩

/-- The full block of a legal encoder becomes pending (R214). -/
theorem packByte_openBlock_legal {e : Encoder} (h : e.Legal) (hi : e.fsm = .idle) (v : Byte) :
    (packByte e v).openBlock.Legal := by
  obtain ⟨buf, p, q, heq, hp, hpos, -⟩ := packByte_spec h hi v
  rw [heq] at hp ⊢
  exact h.withPending nofun rfl hpos hp.bitLt ⟨Nat.le_refl _, Nat.zero_le _, Nat.zero_le _⟩ (fun _ => ⟨rfl, rfl⟩)

/-- The last symbols of a legal encoder become pending (R215). -/
theorem Encoder.Legal.openEnd {e : Encoder} (h : e.Legal) (hi : e.fsm = .idle) {mel : Nat} (hmel : mel ≤ 255) :
    (e.openEnd mel).Legal := by
  have hpos := h.1.idleCursor hi h.2
  have hcount : (if 0 < e.bitPos then e.bytePos + 1 else e.bytePos) ≤ e.obs := by split <;> omega
  refine h.withPending nofun rfl hcount (Nat.zero_lt_of_lt (h.1.bits h.2).1)
    ⟨?_, Nat.zero_le _, Nat.sub_le_of_le_add hmel⟩ nofun
  simp only [Encoder.openEnd]
  generalize (if 0 < e.bitPos then e.bytePos + 1 else e.bytePos) = count at hcount ⊢
  split
  · exact Nat.le_refl _
  · exact hcount

/-- The cursors of a legal encoder reset (R212). -/
theorem Encoder.Legal.resetCursors {e : Encoder} (h : e.Legal) : e.resetCursors.Legal := by
  obtain ⟨h1, h7, ho, -⟩ := h.1.bits h.2
  exact
    ⟨{  unconfigured := fun hv => absurd h.2 (by simp [show e.valid = false from hv])
        bits := fun _ => ⟨h1, h7, ho, h1⟩
        alphabetTail := h.1.alphabetTail
        noPad := h.1.noPad
        posLe := Nat.zero_le _
        idleCursor := fun _ _ => by
          show 0 < e.obs
          rw [ho]
          exact (blockSizes e.b h1 h7).2.1
        wholeBytes := fun _ => by simp [Encoder.resetCursors]
        symbols := fun _ j hj => absurd hj (Nat.not_lt_zero j)
        partialSymbol := fun _ => by simp [Encoder.resetCursors]
        unused := fun _ j _ => by simp [Encoder.resetCursors]
        idlePending := fun _ => ⟨rfl, rfl, rfl⟩
        pending := ⟨Nat.zero_le _, Nat.zero_le _, Nat.zero_le _⟩
        pendingBlock := fun hf => nomatch hf }, h.2⟩

@[simp] theorem encoderUnit_idle_iff (e : Encoder) : encoderUnit.idle e = true ↔ e.fsm = .idle := beq_iff_eq

@[simp] theorem encoderUnit_idle_eq_false_iff (e : Encoder) : encoderUnit.idle e = false ↔ e.fsm ≠ .idle := by
  rw [Ne, ← encoderUnit_idle_iff, Bool.not_eq_true]

/-- The pending bytes of a legal encoder are as many as it says. -/
theorem Encoder.Legal.pending_length {e : Encoder} (h : e.Legal) : (encoderUnit.pending e).length = e.pendLen := by
  have hlen : e.pendLen ≤ 8 := Nat.le_trans h.1.pending.1 h.obsLe
  simpa [encoderUnit] using hlen

/-- The encoder's parts of the skeleton keep a configured encoder legal. -/
theorem encoderUnit_keeps : encoderUnit.Keeps Encoder.Legal where
  pendMel _ h := h.1.pending.2.2
  pendOff e h _ := by
    rw [h.pending_length]
    exact h.1.pending.2.1
  setPendOff e off h hi hoff := by
    rw [h.pending_length] at hoff
    exact h.withPending ((encoderUnit_idle_eq_false_iff e).mp hi) rfl h.1.posLe (h.1.bits h.2).2.2.2
      ⟨h.1.pending.1, hoff, h.1.pending.2.2⟩ h.1.pendingBlock
  complete e off h _ := h.resetCursors
  completeIdle _ := rfl
  beginEnd e mel h hi hmel := h.openEnd ((encoderUnit_idle_iff e).mp hi) hmel
  beginEndPending _ _ := rfl

/-! ### The loop over the input -/

/-- The run with the next input byte packed, its block not yet looked at (R212). -/
def packNext (j : PutJob) (r : PutRun Encoder) : PutRun Encoder :=
  ⟨packByte r.unit (j.byteAt r.pos), r.port, r.pos + 1⟩

/-- The run with its full block pending. -/
def openFull (r : PutRun Encoder) : PutRun Encoder := ⟨r.unit.openBlock, r.port, r.pos⟩

@[simp] theorem packNext_unit (j : PutJob) (r : PutRun Encoder) :
    (packNext j r).unit = packByte r.unit (j.byteAt r.pos) := by rw [packNext]
@[simp] theorem packNext_port (j : PutJob) (r : PutRun Encoder) : (packNext j r).port = r.port := by rw [packNext]
@[simp] theorem packNext_pos (j : PutJob) (r : PutRun Encoder) : (packNext j r).pos = r.pos + 1 := by rw [packNext]
@[simp] theorem openFull_unit (r : PutRun Encoder) : (openFull r).unit = r.unit.openBlock := rfl
@[simp] theorem openFull_port (r : PutRun Encoder) : (openFull r).port = r.port := rfl
@[simp] theorem openFull_pos (r : PutRun Encoder) : (openFull r).pos = r.pos := rfl

section
variable {j : PutJob} {count : Nat} {r : PutRun Encoder}

theorem encoderLoop_of_room (h : (packNext j r).unit.bytePos ≠ (packNext j r).unit.obs) :
    encoderLoop j (count + 1) r = encoderLoop j count (packNext j r) := by
  simp only [packNext] at h ⊢
  simp only [encoderLoop, if_neg h]

theorem encoderLoop_of_flushed (h : (packNext j r).unit.bytePos = (packNext j r).unit.obs) {r' : PutRun Encoder}
    (hf : encoderUnit.flush j (openFull (packNext j r)) = (.go, r')) :
    encoderLoop j (count + 1) r = encoderLoop j count r' := by
  simp only [packNext, openFull] at h hf
  simp only [encoderLoop, if_pos h, hf]

theorem encoderLoop_of_unflushed (h : (packNext j r).unit.bytePos = (packNext j r).unit.obs) {f : Flow} {r' : PutRun Encoder}
    (hf : encoderUnit.flush j (openFull (packNext j r)) = (f, r')) (hne : f ≠ .go) :
    encoderLoop j (count + 1) r = (f, r') := by
  simp only [packNext, openFull] at h hf
  simp only [encoderLoop, if_pos h, hf]

end

/-- What packing a byte and flushing a full block keep, the loop keeps; `P` may speak of the number of input
bytes that are left. -/
theorem encoderLoop_keeps (j : PutJob) {P : Nat → PutRun Encoder → Prop} {Q : PutRun Encoder → Prop}
    (hPQ : ∀ r, P 0 r → Q r)
    (hpack : ∀ c r, P (c + 1) r → (packNext j r).unit.bytePos ≠ (packNext j r).unit.obs → P c (packNext j r))
    (hfull : ∀ c r, P (c + 1) r → Q (encoderUnit.flush j (openFull (packNext j r))).2 ∧
      ((encoderUnit.flush j (openFull (packNext j r))).1 = .go → P c (encoderUnit.flush j (openFull (packNext j r))).2))
    (count : Nat) (r : PutRun Encoder) (h : P count r) :
    Q (encoderLoop j count r).2 ∧ ((encoderLoop j count r).1 = .go → P 0 (encoderLoop j count r).2) := by
  induction count generalizing r with
  | zero => exact ⟨hPQ r h, fun _ => h⟩
  | succ count ih =>
    by_cases hroom : (packNext j r).unit.bytePos = (packNext j r).unit.obs
    · obtain ⟨hq, hp⟩ := hfull count r h
      rcases hres : encoderUnit.flush j (openFull (packNext j r)) with ⟨f, r'⟩
      rw [hres] at hq hp
      by_cases hgo : f = .go
      · rw [encoderLoop_of_flushed hroom (hgo ▸ hres)]
        exact ih r' (hp hgo)
      · rw [encoderLoop_of_unflushed hroom hres hgo]
        exact ⟨hq, fun h => absurd h hgo⟩
    · rw [encoderLoop_of_room hroom]
      exact ih _ (hpack count r h hroom)

theorem encoderBody_legal (j : PutJob) (r : PutRun Encoder) (h : r.unit.Legal) (hi : encoderUnit.idle r.unit = true) :
    (encoderBody j r).2.unit.Legal ∧ ((encoderBody j r).1 = .go → encoderUnit.idle (encoderBody j r).2.unit = true) := by
  have hloop := encoderLoop_keeps j (P := fun _ r => r.unit.Legal ∧ encoderUnit.idle r.unit = true) (Q := fun r => r.unit.Legal)
    (fun _ hP => hP.1)
    (fun _ r hP hne => by
      rw [packNext_unit] at hne ⊢
      obtain ⟨hl, hidle⟩ := packByte_legal hP.1 ((encoderUnit_idle_iff _).mp hP.2) _ hne
      exact ⟨hl, (encoderUnit_idle_iff _).mpr hidle⟩)
    (fun _ r hP => by
      obtain ⟨hl, hidle⟩ := encoderUnit_keeps.flush (j := j) (r := openFull (packNext j r))
        (by
          rw [openFull_unit, packNext_unit]
          exact packByte_openBlock_legal hP.1 ((encoderUnit_idle_iff _).mp hP.2) _) rfl
      exact ⟨hl, fun hgo => ⟨hl, hidle hgo⟩⟩)
    (j.n - r.pos) r ⟨h, hi⟩
  exact ⟨hloop.1, fun hgo => (hloop.2 hgo).2⟩

/-- A put leaves its encoder legal. -/
theorem State.encoderRun_inv (s : State) (n : BitVec 4) (k : Bool) (m : Byte) (h : (s.encoder n).Inv)
    (hv : (s.encoder n).valid = true) : (s.encoderRun n k m).2.unit.Inv :=
  (encoderUnit_keeps.run (s.putJob_mel_le _ n k m) (fun r => encoderBody_legal _ r)
    (r := ⟨s.encoder n, s.portE n, s.latch.pos⟩) ⟨h, hv⟩).1

end Sys2Proof.Machine
end

section
/-! SUPPORT. The decoder's legality through a put (spec/10_state.md R39 to R41, spec/46_basen_decoder.md R232 to
R234): the accumulation of one bit, of one symbol, of the input, and the pending emissions. -/

namespace Sys2Proof.Machine

theorem Decoder.empty_inv : Decoder.empty.Inv where
  unconfigured _ := rfl
  bits h := nomatch h
  posLe := ⟨Nat.le_refl 0, Nat.zero_le _⟩
  idleCursor _ h := nomatch h
  wholeSymbols _ := rfl
  partialByte _ := by simp [Decoder.empty]
  unused _ j _ := by simp [Decoder.empty]
  idlePending _ := ⟨rfl, rfl, rfl⟩
  pending := by simp [Decoder.empty]
  pendingBlock h := nomatch h

/-! ### Accumulating -/

/-- The bits of the current group that are filled: `bytePos` bytes and `bitPos` bits. -/
def Decoder.cursor (d : Decoder) : Nat := 8 * d.bytePos + d.bitPos

/-- The buffer and the cursor while bits are accumulated: as in a legal idle decoder, but anywhere in a
symbol, and up to the full group. -/
structure Decoder.Accumulating (d : Decoder) : Prop where
  obsLe : d.obs ≤ 7
  bitLe : d.bitPos ≤ 7
  partialMod : (entry d.outBuf d.bytePos 0).toNat % 2 ^ (8 - d.bitPos) = 0
  unused : ∀ j, d.bytePos < j → entry d.outBuf j 0 = 0

/-- The current byte with one more bit (R233). -/
def Decoder.byteWith (d : Decoder) (bit : Bool) : Byte :=
  entry d.outBuf d.bytePos 0 ||| ((if bit then 1#8 else 0#8) <<< (7 - d.bitPos))

/-- A bit ends its byte or not. -/
theorem accumulateBit_cases (d : Decoder) (bit : Bool) :
    (d.bitPos + 1 = 8 ∧ accumulateBit d bit =
      { d with outBuf := setEntry d.outBuf d.bytePos (d.byteWith bit), bytePos := d.bytePos + 1, bitPos := 0 }) ∨
    (d.bitPos + 1 ≠ 8 ∧ accumulateBit d bit =
      { d with outBuf := setEntry d.outBuf d.bytePos (d.byteWith bit), bitPos := d.bitPos + 1 }) := by
  by_cases h : d.bitPos + 1 = 8
  · exact .inl ⟨h, if_pos h⟩
  · exact .inr ⟨h, if_neg h⟩

/-- A bit changes the buffer and the cursor only. -/
theorem accumulateBit_frame (d : Decoder) (bit : Bool) :
    ∃ buf p q, accumulateBit d bit = { d with outBuf := buf, bytePos := p, bitPos := q } := by
  rcases accumulateBit_cases d bit with ⟨-, h⟩ | ⟨-, h⟩ <;> exact ⟨_, _, _, h⟩

theorem accumulateBits_frame (bits : List Bool) (d : Decoder) :
    ∃ buf p q, bits.foldl accumulateBit d = { d with outBuf := buf, bytePos := p, bitPos := q } := by
  induction bits generalizing d with
  | nil => exact ⟨d.outBuf, d.bytePos, d.bitPos, rfl⟩
  | cons x xs ih =>
    obtain ⟨buf, p, q, h⟩ := accumulateBit_frame d x
    obtain ⟨buf', p', q', h'⟩ := ih (accumulateBit d x)
    exact ⟨buf', p', q', by rw [List.foldl_cons, h', h]⟩

/-- A bit moves the cursor one on. -/
theorem accumulateBit_cursor (d : Decoder) (bit : Bool) : (accumulateBit d bit).cursor = d.cursor + 1 := by
  rcases accumulateBit_cases d bit with ⟨hb, h⟩ | ⟨-, h⟩ <;> simp only [h, Decoder.cursor] <;> omega

theorem accumulateBit_accumulating {d : Decoder} (h : d.Accumulating) (bit : Bool) (hp : d.bytePos < d.obs) :
    (accumulateBit d bit).Accumulating := by
  obtain ⟨hobs, hbit, hmod, hun⟩ := h
  have hother : ∀ j, d.bytePos ≠ j → entry (setEntry d.outBuf d.bytePos (d.byteWith bit)) j 0 = entry d.outBuf j 0 :=
    fun j hj => entry_setEntry_other _ _ _ _ _ hj
  have hmod' : (entry (setEntry d.outBuf d.bytePos (d.byteWith bit)) d.bytePos 0).toNat % 2 ^ (8 - (d.bitPos + 1)) = 0 := by
    rw [entry_setEntry_same _ _ _ _ (by omega), show 8 - (d.bitPos + 1) = 7 - d.bitPos by omega]
    exact setBit_mod _ bit _ (by rwa [show 7 - d.bitPos + 1 = 8 - d.bitPos by omega])
  rcases accumulateBit_cases d bit with ⟨-, heq⟩ | ⟨hne, heq⟩ <;> rw [heq]
  · refine ⟨hobs, Nat.zero_le _, ?_, fun j hj => ?_⟩
    · have hnew : entry (setEntry d.outBuf d.bytePos (d.byteWith bit)) (d.bytePos + 1) 0 = 0 := by
        rw [hother _ (by omega), hun _ (by omega)]
      simp only [hnew]
      exact Nat.zero_mod _
    · exact hother j (Nat.ne_of_lt (Nat.lt_of_succ_lt hj)) ▸ hun j (Nat.lt_of_succ_lt hj)
  · refine ⟨hobs, by simp only; omega, hmod', fun j hj => ?_⟩
    exact hother j (Nat.ne_of_lt hj) ▸ hun j hj

/-- Bits that fit in the group are accumulated. -/
theorem accumulateBits_accumulating (bits : List Bool) {d : Decoder} (h : d.Accumulating)
    (hfit : d.cursor + bits.length ≤ 8 * d.obs) :
    (bits.foldl accumulateBit d).Accumulating ∧ (bits.foldl accumulateBit d).cursor = d.cursor + bits.length := by
  induction bits generalizing d with
  | nil => exact ⟨h, rfl⟩
  | cons x xs ih =>
    have hobs : (accumulateBit d x).obs = d.obs := by
      obtain ⟨_, _, _, heq⟩ := accumulateBit_frame d x
      rw [heq]
    have hcur := accumulateBit_cursor d x
    simp only [List.length_cons] at hfit ⊢
    obtain ⟨hacc, hc⟩ := ih (accumulateBit_accumulating h x (by simp only [Decoder.cursor] at hfit; omega)) (by omega)
    exact ⟨hacc, by rw [List.foldl_cons, hc]; omega⟩

theorem accumulate_eq_accumulateBits (d : Decoder) (v : Byte) :
    accumulate d v = ((List.range d.b).reverse.map v.getLsbD).foldl accumulateBit d := by
  rw [List.foldl_map, accumulate]

/-! ### Legal decoders between the parts of a put -/

/-- A configured legal decoder. -/
def Decoder.Legal (d : Decoder) : Prop := d.Inv ∧ d.valid = true

theorem Decoder.Legal.obsLe {d : Decoder} (h : d.Legal) : d.obs ≤ 7 := by
  obtain ⟨h1, h7, ho⟩ := h.1.bits h.2
  exact ho ▸ (blockSizes d.b h1 h7).2.2.2.2

theorem Decoder.Legal.accumulating {d : Decoder} (h : d.Legal) (hi : d.fsm = .idle) : d.Accumulating where
  obsLe := h.obsLe
  bitLe := h.1.posLe.2
  partialMod := h.1.partialByte hi
  unused := h.1.unused hi

/-- The group holds whole symbols: `lcm(8, b)` bits (R235). -/
theorem Decoder.Legal.dvd_groupBits {d : Decoder} (h : d.Legal) : d.b ∣ 8 * d.obs := by
  obtain ⟨h1, h7, ho⟩ := h.1.bits h.2
  exact ⟨encoderBlockSize d.b, by rw [ho, Nat.mul_comm d.b, (blockSizes d.b h1 h7).1, Nat.mul_comm]⟩

/-- An idle decoder has room for one more symbol. -/
theorem Decoder.Legal.room {d : Decoder} (h : d.Legal) (hi : d.fsm = .idle) : d.cursor + d.b ≤ 8 * d.obs := by
  have hpos := h.1.idleCursor hi h.2
  have hbit := h.1.posLe.2
  obtain ⟨q, hq⟩ : d.b ∣ d.cursor := Nat.dvd_of_mod_eq_zero (h.1.wholeSymbols hi)
  obtain ⟨m, hm⟩ := h.dvd_groupBits
  have hlt : d.b * q < d.b * m := by
    rw [← hq, ← hm, Decoder.cursor]
    omega
  have hqm : q + 1 ≤ m := Nat.lt_of_mul_lt_mul_left hlt
  calc d.cursor + d.b = d.b * (q + 1) := by rw [hq, Nat.mul_succ]
    _ ≤ d.b * m := Nat.mul_le_mul_left _ hqm
    _ = 8 * d.obs := hm.symm

/-- What a symbol leaves of an idle decoder: only the buffer and the cursor have changed, and they are again
between symbols. -/
theorem accumulate_spec {d : Decoder} (h : d.Legal) (hi : d.fsm = .idle) (v : Byte) :
    ∃ buf p q, accumulate d v = { d with outBuf := buf, bytePos := p, bitPos := q } ∧
      (accumulate d v).Accumulating ∧ p ≤ d.obs ∧ (8 * p + q) % d.b = 0 := by
  have hroom := h.room hi
  rw [accumulate_eq_accumulateBits]
  obtain ⟨hacc, hc⟩ := accumulateBits_accumulating ((List.range d.b).reverse.map v.getLsbD) (h.accumulating hi)
    (by simpa using hroom)
  obtain ⟨buf, p, q, heq⟩ := accumulateBits_frame ((List.range d.b).reverse.map v.getLsbD) d
  rw [heq] at hacc hc ⊢
  have hcur : 8 * p + q = d.cursor + d.b := by simpa [Decoder.cursor] using hc
  refine ⟨buf, p, q, rfl, hacc, by omega, ?_⟩
  rw [hcur, Nat.add_mod_right]
  exact h.1.wholeSymbols hi

/-- A symbol that does not fill the group leaves its decoder idle and legal. -/
theorem accumulate_legal {d : Decoder} (h : d.Legal) (hi : d.fsm = .idle) (v : Byte)
    (hne : (accumulate d v).bytePos ≠ (accumulate d v).obs) : (accumulate d v).Legal ∧ (accumulate d v).fsm = .idle := by
  obtain ⟨buf, p, q, heq, hacc, hpos, hwhole⟩ := accumulate_spec h hi v
  rw [heq] at hacc hne ⊢
  have hinv := h.1
  exact
    ⟨⟨{ unconfigured := fun hv => absurd h.2 (by simp [show d.valid = false from hv])
        bits := hinv.bits
        posLe := ⟨hpos, hacc.bitLe⟩
        idleCursor := fun _ _ => Nat.lt_of_le_of_ne hpos hne
        wholeSymbols := fun _ => hwhole
        partialByte := fun _ => hacc.partialMod
        unused := fun _ => hacc.unused
        idlePending := hinv.idlePending
        pending := hinv.pending
        pendingBlock := hinv.pendingBlock }, h.2⟩, hi⟩

/-- A decoder whose emission is pending, from what it shares with a legal one: the buffer may hold
anything. -/
theorem Decoder.Legal.withPending {d d' : Decoder} (h : d.Legal) (hf : d'.fsm ≠ .idle)
    (hsame : d' = { d with outBuf := d'.outBuf, bytePos := d'.bytePos, bitPos := d'.bitPos, fsm := d'.fsm,
                           pendLen := d'.pendLen, pendOff := d'.pendOff, pendMel := d'.pendMel })
    (hpos : d'.bytePos ≤ d.obs ∧ d'.bitPos ≤ 7)
    (hpend : d'.pendLen ≤ d.obs ∧ d'.pendOff ≤ d'.pendLen ∧ d'.pendMel ≤ 254)
    (hblock : d'.fsm = .pendBlock → d'.pendLen = d.obs ∧ d'.pendMel = 0) : d'.Legal := by
  rw [hsame] at hf ⊢
  exact
    ⟨{  unconfigured := fun hv => absurd h.2 (by simp [show d.valid = false from hv])
        bits := h.1.bits
        posLe := hpos
        idleCursor := fun hi => absurd hi hf
        wholeSymbols := fun hi => absurd hi hf
        partialByte := fun hi => absurd hi hf
        unused := fun hi => absurd hi hf
        idlePending := fun hi => absurd hi hf
        pending := hpend
        pendingBlock := hblock }, h.2⟩

/-- The full group of a legal decoder becomes pending (R232). -/
theorem accumulate_openBlock_legal {d : Decoder} (h : d.Legal) (hi : d.fsm = .idle) (v : Byte) :
    (accumulate d v).openBlock.Legal := by
  obtain ⟨buf, p, q, heq, hacc, hpos, -⟩ := accumulate_spec h hi v
  rw [heq] at hacc ⊢
  exact h.withPending nofun rfl ⟨hpos, hacc.bitLe⟩ ⟨Nat.le_refl _, Nat.zero_le _, Nat.zero_le _⟩ (fun _ => ⟨rfl, rfl⟩)

/-- The whole bytes of a legal decoder become pending (R234). -/
theorem Decoder.Legal.openEnd {d : Decoder} (h : d.Legal) {mel : Nat} (hmel : mel ≤ 255) : (d.openEnd mel).Legal :=
  h.withPending nofun rfl h.1.posLe ⟨h.1.posLe.1, Nat.zero_le _, Nat.sub_le_of_le_add hmel⟩ nofun

/-- The cursors of a legal decoder reset (R232). -/
theorem Decoder.Legal.resetCursors {d : Decoder} (h : d.Legal) : d.resetCursors.Legal := by
  obtain ⟨h1, h7, ho⟩ := h.1.bits h.2
  exact
    ⟨{  unconfigured := fun hv => absurd h.2 (by simp [show d.valid = false from hv])
        bits := fun _ => ⟨h1, h7, ho⟩
        posLe := ⟨Nat.zero_le _, Nat.zero_le _⟩
        idleCursor := fun _ _ => by
          show 0 < d.obs
          rw [ho]
          exact (blockSizes d.b h1 h7).2.2.2.1
        wholeSymbols := fun _ => by simp [Decoder.resetCursors]
        partialByte := fun _ => by simp [Decoder.resetCursors]
        unused := fun _ j _ => by simp [Decoder.resetCursors]
        idlePending := fun _ => ⟨rfl, rfl, rfl⟩
        pending := ⟨Nat.zero_le _, Nat.zero_le _, Nat.zero_le _⟩
        pendingBlock := nofun }, h.2⟩

@[simp] theorem decoderUnit_idle_iff (d : Decoder) : decoderUnit.idle d = true ↔ d.fsm = .idle := beq_iff_eq

@[simp] theorem decoderUnit_idle_eq_false_iff (d : Decoder) : decoderUnit.idle d = false ↔ d.fsm ≠ .idle := by
  rw [Ne, ← decoderUnit_idle_iff, Bool.not_eq_true]

/-- The pending bytes of a legal decoder are as many as it says. -/
theorem Decoder.Legal.pending_length {d : Decoder} (h : d.Legal) : (decoderUnit.pending d).length = d.pendLen := by
  have hlen : d.pendLen ≤ 7 := Nat.le_trans h.1.pending.1 h.obsLe
  simpa [decoderUnit] using hlen

/-- The decoder's parts of the skeleton keep a configured decoder legal. -/
theorem decoderUnit_keeps : decoderUnit.Keeps Decoder.Legal where
  pendMel _ h := h.1.pending.2.2
  pendOff d h _ := by
    rw [h.pending_length]
    exact h.1.pending.2.1
  setPendOff d off h hi hoff := by
    rw [h.pending_length] at hoff
    exact h.withPending ((decoderUnit_idle_eq_false_iff d).mp hi) rfl h.1.posLe ⟨h.1.pending.1, hoff, h.1.pending.2.2⟩
      h.1.pendingBlock
  complete d off h _ := h.resetCursors
  completeIdle _ := rfl
  beginEnd d mel h _ hmel := h.openEnd hmel
  beginEndPending _ _ := rfl

/-! ### The loop over the input -/

/-- The value of the next input byte (R232). -/
def nextValue (j : PutJob) (r : PutRun Decoder) : Byte := entry r.unit.lookup (j.byteAt r.pos).toNat 0xFF#8

/-- The run with the next input byte skipped (R233). -/
def skipNext (r : PutRun Decoder) : PutRun Decoder := ⟨r.unit, r.port, r.pos + 1⟩

/-- The run with the next symbol accumulated, its group not yet looked at (R232). -/
def decodeNext (j : PutJob) (r : PutRun Decoder) : PutRun Decoder :=
  ⟨accumulate r.unit (nextValue j r), r.port, r.pos + 1⟩

/-- The run with its full group pending. -/
def openGroup (r : PutRun Decoder) : PutRun Decoder := ⟨r.unit.openBlock, r.port, r.pos⟩

@[simp] theorem skipNext_pos (r : PutRun Decoder) : (skipNext r).pos = r.pos + 1 := rfl
@[simp] theorem decodeNext_unit (j : PutJob) (r : PutRun Decoder) :
    (decodeNext j r).unit = accumulate r.unit (nextValue j r) := by rw [decodeNext]
@[simp] theorem decodeNext_port (j : PutJob) (r : PutRun Decoder) : (decodeNext j r).port = r.port := by rw [decodeNext]
@[simp] theorem decodeNext_pos (j : PutJob) (r : PutRun Decoder) : (decodeNext j r).pos = r.pos + 1 := by rw [decodeNext]
@[simp] theorem openGroup_unit (r : PutRun Decoder) : (openGroup r).unit = r.unit.openBlock := rfl
@[simp] theorem openGroup_port (r : PutRun Decoder) : (openGroup r).port = r.port := rfl
@[simp] theorem openGroup_pos (r : PutRun Decoder) : (openGroup r).pos = r.pos := rfl

section
variable {j : PutJob} {count : Nat} {r : PutRun Decoder}

theorem decoderLoop_of_skips (hs : r.unit.skips (nextValue j r) = true) :
    decoderLoop j (count + 1) r = decoderLoop j count (skipNext r) := by
  simp only [nextValue] at hs
  simp only [decoderLoop, hs, if_true, skipNext]

theorem decoderLoop_of_room (hs : r.unit.skips (nextValue j r) = false)
    (h : (decodeNext j r).unit.bytePos ≠ (decodeNext j r).unit.obs) :
    decoderLoop j (count + 1) r = decoderLoop j count (decodeNext j r) := by
  simp only [nextValue, decodeNext] at hs h ⊢
  simp only [decoderLoop, hs, Bool.false_eq_true, if_false, if_neg h]

theorem decoderLoop_of_flushed (hs : r.unit.skips (nextValue j r) = false)
    (h : (decodeNext j r).unit.bytePos = (decodeNext j r).unit.obs) {r' : PutRun Decoder}
    (hf : decoderUnit.flush j (openGroup (decodeNext j r)) = (.go, r')) :
    decoderLoop j (count + 1) r = decoderLoop j count r' := by
  simp only [nextValue, decodeNext, openGroup] at hs h hf
  simp only [decoderLoop, hs, Bool.false_eq_true, if_false, if_pos h, hf]

theorem decoderLoop_of_unflushed (hs : r.unit.skips (nextValue j r) = false)
    (h : (decodeNext j r).unit.bytePos = (decodeNext j r).unit.obs) {f : Flow} {r' : PutRun Decoder}
    (hf : decoderUnit.flush j (openGroup (decodeNext j r)) = (f, r')) (hne : f ≠ .go) :
    decoderLoop j (count + 1) r = (f, r') := by
  simp only [nextValue, decodeNext, openGroup] at hs h hf
  simp only [decoderLoop, hs, Bool.false_eq_true, if_false, if_pos h, hf]

end

/-- What skipping a byte, accumulating a symbol and flushing a full group keep, the loop keeps; `P` may speak
of the number of input bytes that are left. -/
theorem decoderLoop_keeps (j : PutJob) {P : Nat → PutRun Decoder → Prop} {Q : PutRun Decoder → Prop}
    (hPQ : ∀ r, P 0 r → Q r) (hskip : ∀ c r, P (c + 1) r → P c (skipNext r))
    (hdecode : ∀ c r, P (c + 1) r → (decodeNext j r).unit.bytePos ≠ (decodeNext j r).unit.obs → P c (decodeNext j r))
    (hfull : ∀ c r, P (c + 1) r → Q (decoderUnit.flush j (openGroup (decodeNext j r))).2 ∧
      ((decoderUnit.flush j (openGroup (decodeNext j r))).1 = .go → P c (decoderUnit.flush j (openGroup (decodeNext j r))).2))
    (count : Nat) (r : PutRun Decoder) (h : P count r) :
    Q (decoderLoop j count r).2 ∧ ((decoderLoop j count r).1 = .go → P 0 (decoderLoop j count r).2) := by
  induction count generalizing r with
  | zero => exact ⟨hPQ r h, fun _ => h⟩
  | succ count ih =>
    rcases hs : r.unit.skips (nextValue j r)
    · by_cases hroom : (decodeNext j r).unit.bytePos = (decodeNext j r).unit.obs
      · obtain ⟨hq, hp⟩ := hfull count r h
        rcases hres : decoderUnit.flush j (openGroup (decodeNext j r)) with ⟨f, r'⟩
        rw [hres] at hq hp
        by_cases hgo : f = .go
        · rw [decoderLoop_of_flushed hs hroom (hgo ▸ hres)]
          exact ih r' (hp hgo)
        · rw [decoderLoop_of_unflushed hs hroom hres hgo]
          exact ⟨hq, fun h => absurd h hgo⟩
      · rw [decoderLoop_of_room hs hroom]
        exact ih _ (hdecode count r h hroom)
    · rw [decoderLoop_of_skips hs]
      exact ih _ (hskip count r h)

theorem decoderBody_legal (j : PutJob) (r : PutRun Decoder) (h : r.unit.Legal) (hi : decoderUnit.idle r.unit = true) :
    (decoderBody j r).2.unit.Legal ∧ ((decoderBody j r).1 = .go → decoderUnit.idle (decoderBody j r).2.unit = true) := by
  have hloop := decoderLoop_keeps j (P := fun _ r => r.unit.Legal ∧ decoderUnit.idle r.unit = true) (Q := fun r => r.unit.Legal)
    (fun _ hP => hP.1) (fun _ _ hP => hP)
    (fun _ r hP hne => by
      rw [decodeNext_unit] at hne ⊢
      obtain ⟨hl, hidle⟩ := accumulate_legal hP.1 ((decoderUnit_idle_iff _).mp hP.2) _ hne
      exact ⟨hl, (decoderUnit_idle_iff _).mpr hidle⟩)
    (fun _ r hP => by
      obtain ⟨hl, hidle⟩ := decoderUnit_keeps.flush (j := j) (r := openGroup (decodeNext j r))
        (by
          rw [openGroup_unit, decodeNext_unit]
          exact accumulate_openBlock_legal hP.1 ((decoderUnit_idle_iff _).mp hP.2) _) rfl
      exact ⟨hl, fun hgo => ⟨hl, hidle hgo⟩⟩)
    (j.n - r.pos) r ⟨h, hi⟩
  exact ⟨hloop.1, fun hgo => (hloop.2 hgo).2⟩

/-- A put leaves its decoder legal. -/
theorem State.decoderRun_inv (s : State) (n : BitVec 4) (k : Bool) (m : Byte) (h : (s.decoder n).Inv)
    (hv : (s.decoder n).valid = true) : (s.decoderRun n k m).2.unit.Inv :=
  (decoderUnit_keeps.run (s.putJob_mel_le _ n k m) (fun r => decoderBody_legal _ r)
    (r := ⟨s.decoder n, s.portD n, s.latch.pos⟩) ⟨h, hv⟩).1

end Sys2Proof.Machine
end

section
/-! SUPPORT. The Grouper's legality through a put (spec/10_state.md R43 to R45, spec/47_grouper.md R251 to R254):
counting forwarded bytes, the separator, the chunks of a group, and the pending emissions. -/

namespace Sys2Proof.Machine

theorem Grouper.empty_inv : Grouper.empty.Inv where
  unconfigured _ := rfl
  strings := ⟨Nat.zero_le _, Nat.zero_le _⟩
  sepTail j _ := by simp [Grouper.empty]
  termTail j _ := by simp [Grouper.empty]
  counterLe := Nat.zero_le _
  idlePending _ := ⟨rfl, rfl⟩
  pendingSep := nofun
  pendingTerm := nofun

/-- The pending level of a legal Grouper, in whatever phase. -/
theorem Grouper.Inv.pendMel_le {g : Grouper} (h : g.Inv) : g.pendMel ≤ 254 := by
  cases hf : g.fsm with
  | idle => exact (h.idlePending hf).2 ▸ Nat.zero_le _
  | pendSep => exact (h.pendingSep hf).2.1 ▸ Nat.zero_le _
  | pendTerm => exact (h.pendingTerm hf).2

/-! ### Legal Groupers between the parts of a put -/

/-- A configured legal Grouper with the group size `size`, which no put changes. -/
structure Grouper.Legal (size : Nat) (g : Grouper) : Prop where
  inv : g.Inv
  valid : g.valid = true
  groupSize : g.groupSize.toNat = size

variable {size : Nat} {g : Grouper}

/-- A Grouper with another count and another pending emission, from what it shares with a legal one. -/
theorem Grouper.Legal.withPending {g' : Grouper} (h : g.Legal size)
    (hsame : g' = { g with counter := g'.counter, fsm := g'.fsm, pendOff := g'.pendOff, pendMel := g'.pendMel })
    (hcount : g'.counter ≤ size) (hidle : g'.fsm = .idle → g'.pendOff = 0 ∧ g'.pendMel = 0)
    (hsep : g'.fsm = .pendSep → g'.pendOff ≤ g.sepLen ∧ g'.pendMel = 0 ∧ g'.counter = size ∧ 0 < size)
    (hterm : g'.fsm = .pendTerm → g'.pendOff ≤ g.termLen ∧ g'.pendMel ≤ 254) : g'.Legal size := by
  obtain ⟨hinv, hv, rfl⟩ := h
  rw [hsame]
  exact
    ⟨{  unconfigured := fun hv' => absurd hv (by simp [show g.valid = false from hv'])
        strings := hinv.strings
        sepTail := hinv.sepTail
        termTail := hinv.termTail
        counterLe := hcount
        idlePending := hidle
        pendingSep := hsep
        pendingTerm := hterm }, hv, rfl⟩

theorem Grouper.Legal.counter_le (h : g.Legal size) : g.counter ≤ size := h.groupSize ▸ h.inv.counterLe

/-- Counting bytes that fit in the group keeps an idle Grouper legal. -/
theorem Grouper.Legal.count (h : g.Legal size) (hi : g.fsm = .idle) {k : Nat} (hk : 0 < size → g.counter + k ≤ size) :
    (g.count k).Legal size ∧ (g.count k).fsm = .idle := by
  unfold Grouper.count
  rw [h.groupSize]
  split
  · exact ⟨h.withPending rfl (hk ‹_›) h.inv.idlePending (fun hf => nomatch hi.symm.trans hf)
      (fun hf => nomatch hi.symm.trans hf), hi⟩
  · exact ⟨h, hi⟩

theorem Grouper.Legal.complete (h : g.Legal size) : g.complete.Legal size :=
  h.withPending rfl (Nat.zero_le _) (fun _ => ⟨rfl, rfl⟩) nofun nofun

/-- The separator of a full group becomes pending (R253). -/
theorem Grouper.Legal.openSeparator (h : g.Legal size) (hsize : 0 < size) (hfull : g.counter = size) :
    g.openSeparator.Legal size :=
  h.withPending rfl h.counter_le nofun (fun _ => ⟨Nat.zero_le _, rfl, hfull, hsize⟩) nofun

/-- The terminator becomes pending (R254). -/
theorem Grouper.Legal.openEnd (h : g.Legal size) {mel : Nat} (hmel : mel ≤ 255) : (g.openEnd mel).Legal size :=
  h.withPending rfl h.counter_le nofun nofun (fun _ => ⟨Nat.zero_le _, Nat.sub_le_of_le_add hmel⟩)

@[simp] theorem grouperUnit_idle_iff (g : Grouper) : grouperUnit.idle g = true ↔ g.fsm = .idle := beq_iff_eq

@[simp] theorem grouperUnit_idle_eq_false_iff (g : Grouper) : grouperUnit.idle g = false ↔ g.fsm ≠ .idle := by
  rw [Ne, ← grouperUnit_idle_iff, Bool.not_eq_true]

/-- The offset of a legal Grouper's pending emission lies inside it, and may move inside it. -/
theorem Grouper.Legal.pendingBytes (h : g.Legal size) (hi : g.fsm ≠ .idle) :
    g.pendOff ≤ g.pendingBytes.length ∧
      ∀ off, off ≤ g.pendingBytes.length → Grouper.Legal size { g with pendOff := off } := by
  obtain ⟨hsepLen, htermLen⟩ := h.inv.strings
  cases hf : g.fsm with
  | idle => exact absurd hf hi
  | pendSep =>
    obtain ⟨hoff, hmel, hcount, hpos⟩ := h.inv.pendingSep hf
    have hlen : g.pendingBytes.length = g.sepLen := by simpa [Grouper.pendingBytes, hf] using hsepLen
    rw [hlen]
    refine ⟨hoff, fun off ho => h.withPending rfl h.counter_le nofun (fun _ => ?_) nofun⟩
    exact ⟨ho, hmel, hcount.trans h.groupSize, h.groupSize ▸ hpos⟩
  | pendTerm =>
    obtain ⟨hoff, hmel⟩ := h.inv.pendingTerm hf
    have hlen : g.pendingBytes.length = g.termLen := by simpa [Grouper.pendingBytes, hf] using htermLen
    rw [hlen]
    exact ⟨hoff, fun off ho => h.withPending rfl h.counter_le nofun nofun (fun _ => ⟨ho, hmel⟩)⟩

/-- The Grouper's parts of the skeleton keep a configured Grouper legal. -/
theorem grouperUnit_keeps (size : Nat) : grouperUnit.Keeps (Grouper.Legal size) where
  pendMel _ h := h.inv.pendMel_le
  pendOff g h hi := (h.pendingBytes ((grouperUnit_idle_eq_false_iff g).mp hi)).1
  setPendOff g off h hi hoff := (h.pendingBytes ((grouperUnit_idle_eq_false_iff g).mp hi)).2 off hoff
  complete _ _ h _ := h.complete
  completeIdle _ := rfl
  beginEnd _ _ h _ hmel := h.openEnd hmel
  beginEndPending _ _ := rfl

/-! ### The loop over the groups -/

/-- The chunk that a pass forwards: up to the end of the group or of the input (R251). -/
def forwardGroup (j : PutJob) (r : PutRun Grouper) : Flow × PutRun Grouper :=
  forwardData j (min (j.n - r.pos) (r.unit.groupSize.toNat - r.unit.counter)) r

/-- What the separator and the chunk of a pass keep, the loop keeps. -/
theorem groupLoop_keeps (j : PutJob) {P Q : PutRun Grouper → Prop} (hPQ : ∀ r, P r → Q r)
    (hsep : ∀ r, P r → Q (separate j r).2 ∧ ((separate j r).1 = .go → P (separate j r).2))
    (hfwd : ∀ r, P r → Q (forwardGroup j r).2 ∧ ((forwardGroup j r).1 = .go → P (forwardGroup j r).2))
    (fuel : Nat) (r : PutRun Grouper) (h : P r) :
    Q (groupLoop j fuel r).2 ∧ ((groupLoop j fuel r).1 = .go → P (groupLoop j fuel r).2) := by
  induction fuel generalizing r with
  | zero => exact ⟨hPQ r h, fun _ => h⟩
  | succ fuel ih =>
    rw [groupLoop]
    split
    · obtain ⟨hq, hp⟩ := hsep r h
      rcases hs : separate j r with ⟨f, r'⟩
      rw [hs] at hq hp
      cases f with
      | go =>
        obtain ⟨hq', hp'⟩ := hfwd r' (hp rfl)
        rcases hf : forwardGroup j r' with ⟨f', r''⟩
        rw [hf] at hq' hp'
        rw [forwardGroup] at hf
        simp only [hf]
        cases f' with
        | go => exact ih r'' (hp' rfl)
        | stall => exact ⟨hq', nofun⟩
        | wait => exact ⟨hq', nofun⟩
      | stall => exact ⟨hq, nofun⟩
      | wait => exact ⟨hq, nofun⟩
    · exact ⟨hPQ r h, fun _ => h⟩

theorem separate_legal (j : PutJob) (r : PutRun Grouper) (h : r.unit.Legal size) (hi : grouperUnit.idle r.unit = true)
    (hsize : 0 < size) :
    (separate j r).2.unit.Legal size ∧ ((separate j r).1 = .go → grouperUnit.idle (separate j r).2.unit = true) := by
  unfold separate
  split
  · rename_i hfull
    exact (grouperUnit_keeps size).flush (r := { r with unit := r.unit.openSeparator })
      (h.openSeparator hsize (hfull.trans h.groupSize)) rfl
  · exact ⟨h, fun _ => hi⟩

/-- Forwarding leaves an idle Grouper idle, and legal when the chunk fits in the group. -/
theorem forwardData_legal (j : PutJob) (m : Nat) (r : PutRun Grouper) (h : r.unit.Legal size)
    (hi : grouperUnit.idle r.unit = true) (hm : 0 < size → r.unit.counter + m ≤ size) :
    (forwardData j m r).2.unit.Legal size ∧ grouperUnit.idle (forwardData j m r).2.unit = true := by
  obtain ⟨k, hk, -, hunit, -⟩ := forwardLoop_spec j r.port.drawn r.port.answers r.port.history m r.unit r.pos
  rw [forwardData, hunit, grouperUnit_idle_iff]
  exact h.count ((grouperUnit_idle_iff _).mp hi) (fun hs => by have := hm hs; omega)

theorem grouperBody_legal (j : PutJob) (r : PutRun Grouper) (h : r.unit.Legal size) (hi : grouperUnit.idle r.unit = true) :
    (grouperBody j r).2.unit.Legal size ∧ ((grouperBody j r).1 = .go → grouperUnit.idle (grouperBody j r).2.unit = true) := by
  unfold grouperBody
  rw [h.groupSize]
  split
  · rename_i hzero
    split
    · have hf := forwardData_legal j (j.n - r.pos) r h hi (fun hs => absurd hs (by omega))
      exact ⟨hf.1, fun _ => hf.2⟩
    · exact ⟨h, fun _ => hi⟩
  · rename_i hsize
    have hloop := groupLoop_keeps j (P := fun r => r.unit.Legal size ∧ grouperUnit.idle r.unit = true)
      (Q := fun r => r.unit.Legal size) (fun _ hP => hP.1)
      (fun r hP => by
        obtain ⟨hl, hidle⟩ := separate_legal j r hP.1 hP.2 (Nat.pos_of_ne_zero hsize)
        exact ⟨hl, fun hgo => ⟨hl, hidle hgo⟩⟩)
      (fun r hP => by
        have hfit : r.unit.counter + min (j.n - r.pos) (r.unit.groupSize.toNat - r.unit.counter) ≤ size := by
          have := hP.1.counter_le
          have := hP.1.groupSize
          omega
        have hf := forwardData_legal j _ r hP.1 hP.2 (fun _ => hfit)
        exact ⟨hf.1, fun _ => hf⟩)
      (j.n - r.pos) r ⟨h, hi⟩
    exact ⟨hloop.1, fun hgo => (hloop.2 hgo).2⟩

/-- A put leaves its Grouper legal. -/
theorem State.grouperRun_inv (s : State) (n : BitVec 4) (k : Bool) (m : Byte) (h : (s.grouper n).Inv)
    (hv : (s.grouper n).valid = true) : (s.grouperRun n k m).2.unit.Inv :=
  ((grouperUnit_keeps (s.grouper n).groupSize.toNat).run (s.putJob_mel_le _ n k m) (fun r => grouperBody_legal _ r)
    (r := ⟨s.grouper n, s.portG n, s.latch.pos⟩) ⟨h, hv, rfl⟩).inv

end Sys2Proof.Machine
end

section
/-! SUPPORT. Every act keeps the contexts and the instances legal (spec/10_state.md R30, R34 to R45). -/

namespace Sys2Proof.Machine

/-! ### Banks -/

section
variable {α : Type} {n : Nat} {p : α → Prop} {v : Vector α n}

theorem forall_mem_setEntry (h : ∀ x ∈ v.toList, p x) (i : Nat) {a : α} (ha : p a) : ∀ x ∈ (setEntry v i a).toList, p x :=
  fun x hx => (mem_setEntry hx).elim (fun e => e ▸ ha) (h x)

theorem forall_mem_replicate (n : Nat) {a : α} (ha : p a) : ∀ x ∈ (Vector.replicate n a).toList, p x := by
  intro x hx
  rw [Vector.toList_replicate] at hx
  exact List.eq_of_mem_replicate hx ▸ ha

theorem forall_mem_mapBank {f : α → α} (h : ∀ x ∈ v.toList, p (f x)) : ∀ x ∈ (mapBank f v).toList, p x := by
  intro x hx
  rw [mapBank_toList, List.mem_map] at hx
  obtain ⟨y, hy, rfl⟩ := hx
  exact h y hy

theorem entry_of_forall (h : ∀ x ∈ v.toList, p x) (i : Nat) {d : α} (hd : p d) : p (entry v i d) :=
  (entry_mem_or v i d).elim (h _) (fun e => by rwa [e])

end

/-! ### The reset values are legal -/

theorem State.reset_aesInv : State.reset.AesInv := forall_mem_replicate _ AesCtx.empty_inv
theorem State.reset_encoderInv : State.reset.EncoderInv := forall_mem_replicate _ Encoder.empty_inv
theorem State.reset_decoderInv : State.reset.DecoderInv := forall_mem_replicate _ Decoder.empty_inv
theorem State.reset_grouperInv : State.reset.GrouperInv := forall_mem_replicate _ Grouper.empty_inv

/-! ### One act -/

variable {s t : State}

theorem Effect.aesInv (hs : s.AesInv) (h : Effect s t) : t.AesInv := by
  cases h with
  | context n c r hc => exact forall_mem_setEntry hs n.toNat hc
  | encoderPut | decoderPut | grouperPut => simpa [State.AesInv] using hs
  | _ => exact hs

theorem Effect.encoderInv (hs : s.EncoderInv) (h : Effect s t) : t.EncoderInv := by
  cases h with
  | encoderInit n e r he => exact forall_mem_setEntry hs n.toNat he
  | encoderPut n k m events hv =>
    rw [State.EncoderInv, State.endPut_enc]
    exact forall_mem_setEntry hs n.toNat (s.encoderRun_inv n k m (entry_of_forall hs _ Encoder.empty_inv) hv)
  | decoderPut | grouperPut => simpa [State.EncoderInv] using hs
  | _ => exact hs

theorem Effect.decoderInv (hs : s.DecoderInv) (h : Effect s t) : t.DecoderInv := by
  cases h with
  | decoderInit n d r hd => exact forall_mem_setEntry hs n.toNat hd
  | decoderPut n k m events hv =>
    rw [State.DecoderInv, State.endPut_dec]
    exact forall_mem_setEntry hs n.toNat (s.decoderRun_inv n k m (entry_of_forall hs _ Decoder.empty_inv) hv)
  | encoderPut | grouperPut => simpa [State.DecoderInv] using hs
  | _ => exact hs

theorem Effect.grouperInv (hs : s.GrouperInv) (h : Effect s t) : t.GrouperInv := by
  cases h with
  | grouperInit n g r hg => exact forall_mem_setEntry hs n.toNat hg
  | grouperPut n k m events hv =>
    rw [State.GrouperInv, State.endPut_grp]
    exact forall_mem_setEntry hs n.toNat (s.grouperRun_inv n k m (entry_of_forall hs _ Grouper.empty_inv) hv)
  | encoderPut | decoderPut => simpa [State.GrouperInv] using hs
  | _ => exact hs

theorem Act.aesInv (hs : s.AesInv) (h : Act s t) : t.AesInv := by
  cases h with
  | reset => simpa [State.AesInv] using State.reset_aesInv
  | sink q k => simpa [State.AesInv] using hs
  | effect hb h => exact h.aesInv hs
  | _ => exact hs

theorem Act.encoderInv (hs : s.EncoderInv) (h : Act s t) : t.EncoderInv := by
  cases h with
  | reset => simpa [State.EncoderInv] using State.reset_encoderInv
  | sink q k => simpa [State.EncoderInv] using hs
  | effect hb h => exact h.encoderInv hs
  | _ => exact hs

theorem Act.decoderInv (hs : s.DecoderInv) (h : Act s t) : t.DecoderInv := by
  cases h with
  | reset => simpa [State.DecoderInv] using State.reset_decoderInv
  | sink q k => simpa [State.DecoderInv] using hs
  | effect hb h => exact h.decoderInv hs
  | _ => exact hs

theorem Act.grouperInv (hs : s.GrouperInv) (h : Act s t) : t.GrouperInv := by
  cases h with
  | reset => simpa [State.GrouperInv] using State.reset_grouperInv
  | sink q k => simpa [State.GrouperInv] using hs
  | effect hb h => exact h.grouperInv hs
  | _ => exact hs

end Sys2Proof.Machine
end

section
/-! PROOF. The invariants of spec/10_state.md that one bank of contexts or instances carries. -/

namespace Sys2Proof.Proofs

open Sys2Proof.Machine

/-- Settles O55: `AES_SET_KEY` writes the schedule of a key of legal length, `AES_CLEAR_KEY` and a reset empty
a context, and nothing else writes one. -/
theorem stepKeepsContextsLegal : Obligations.StepKeepsContextsLegal :=
  step_keeps (fun _ _ _ _ h => h) (fun _ _ hs h => h.aesInv hs)

/-- Settles O56: through the packing loop whole bytes are packed, so that a full block ends at a symbol
boundary, and the pending emissions stay inside the block. -/
theorem stepKeepsEncodersLegal : Obligations.StepKeepsEncodersLegal :=
  step_keeps (fun _ _ _ _ h => h) (fun _ _ hs h => h.encoderInv hs)

/-- Settles O57: through the accumulating loop whole symbols are accumulated, so that a full group ends at a
byte boundary, and the pending emissions stay inside the group. -/
theorem stepKeepsDecodersLegal : Obligations.StepKeepsDecodersLegal :=
  step_keeps (fun _ _ _ _ h => h) (fun _ _ hs h => h.decoderInv hs)

/-- Settles O58: a chunk never goes past the end of its group, the separator becomes pending at the end of one
only, and completing an emission starts a new group. -/
theorem stepKeepsGroupersLegal : Obligations.StepKeepsGroupersLegal :=
  step_keeps (fun _ _ _ _ h => h) (fun _ _ hs h => h.grouperInv hs)

end Sys2Proof.Proofs
end

section
/-! SUPPORT. The input cursor and the output port through a put (spec/10_state.md R46, R47, spec/44_filter_interface.md
R191 to R196): the cursor stays inside the input, and the history grows by legal events. -/

namespace Sys2Proof.Machine

/-! ### The cursor (R47, R196) -/

section
variable {U : Type} {u : PutUnit U} {j : PutJob}

/-- A put whose body keeps the cursor inside the input keeps it there. -/
theorem PutUnit.run_pos {body : PutJob → PutRun U → Flow × PutRun U}
    (hbody : ∀ r, r.pos ≤ j.n → (body j r).2.pos ≤ j.n) (r : PutRun U) (h : r.pos ≤ j.n) : (u.run body j r).2.pos ≤ j.n :=
  u.run_keeps body j (P := fun r => r.pos ≤ j.n) (Q := fun r => r.pos ≤ j.n) (fun _ h => h) (fun _ h _ => h)
    (fun r h => ⟨hbody r h, fun _ => hbody r h⟩) (fun r h => by simpa using h) (fun r h _ => by simp [h]) r h

end

theorem encoderBody_pos (j : PutJob) (r : PutRun Encoder) (h : r.pos ≤ j.n) : (encoderBody j r).2.pos ≤ j.n :=
  (encoderLoop_keeps j (P := fun c r => r.pos + c ≤ j.n) (Q := fun r => r.pos ≤ j.n) (fun _ h => h)
    (fun c r h _ => by rw [packNext_pos]; omega)
    (fun c r h => by rw [PutUnit.flush_pos, openFull_pos, packNext_pos]; omega) (j.n - r.pos) r (by omega)).1

theorem decoderBody_pos (j : PutJob) (r : PutRun Decoder) (h : r.pos ≤ j.n) : (decoderBody j r).2.pos ≤ j.n :=
  (decoderLoop_keeps j (P := fun c r => r.pos + c ≤ j.n) (Q := fun r => r.pos ≤ j.n) (fun _ h => h)
    (fun c r h => by rw [skipNext_pos]; omega) (fun c r h _ => by rw [decodeNext_pos]; omega)
    (fun c r h => by rw [PutUnit.flush_pos, openGroup_pos, decodeNext_pos]; omega) (j.n - r.pos) r (by omega)).1

/-- Forwarding moves the cursor by no more than the chunk. -/
theorem forwardData_pos (j : PutJob) (m : Nat) (r : PutRun Grouper) : (forwardData j m r).2.pos ≤ r.pos + m := by
  obtain ⟨k, hk, hpos, -⟩ := forwardLoop_spec j r.port.drawn r.port.answers r.port.history m r.unit r.pos
  rw [forwardData, hpos]
  omega

@[simp] theorem separate_pos (j : PutJob) (r : PutRun Grouper) : (separate j r).2.pos = r.pos := by
  unfold separate
  split
  · exact grouperUnit.flush_pos j _
  · rfl

theorem forwardGroup_pos (j : PutJob) (r : PutRun Grouper) (h : r.pos ≤ j.n) : (forwardGroup j r).2.pos ≤ j.n := by
  have := forwardData_pos j (min (j.n - r.pos) (r.unit.groupSize.toNat - r.unit.counter)) r
  rw [forwardGroup]
  omega

theorem grouperBody_pos (j : PutJob) (r : PutRun Grouper) (h : r.pos ≤ j.n) : (grouperBody j r).2.pos ≤ j.n := by
  unfold grouperBody
  split
  · split
    · have := forwardData_pos j (j.n - r.pos) r
      omega
    · exact h
  · exact (groupLoop_keeps j (P := fun r => r.pos ≤ j.n) (Q := fun r => r.pos ≤ j.n) (fun _ h => h)
      (fun r h => by simp [h]) (fun r h => ⟨forwardGroup_pos j r h, fun _ => forwardGroup_pos j r h⟩)
      (j.n - r.pos) r h).1

section
variable (s : State) (n : BitVec 4) (k : Bool) (m : Byte)

theorem State.encoderRun_pos (h : s.latch.pos ≤ s.len3) : (s.encoderRun n k m).2.pos ≤ s.len3 :=
  PutUnit.run_pos (encoderBody_pos _) _ h

theorem State.decoderRun_pos (h : s.latch.pos ≤ s.len3) : (s.decoderRun n k m).2.pos ≤ s.len3 :=
  PutUnit.run_pos (decoderBody_pos _) _ h

theorem State.grouperRun_pos (h : s.latch.pos ≤ s.len3) : (s.grouperRun n k m).2.pos ≤ s.len3 :=
  PutUnit.run_pos (grouperBody_pos _) _ h

end

/-! ### The history (R46, R192, R195) -/

section
variable {U : Type}

/-- A pending level that may still become a message end, and a port with legal events only. -/
def PutUnit.PortLegal (u : PutUnit U) (r : PutRun U) : Prop := u.pendMel r.unit ≤ 254 ∧ r.port.Inv

/-- How a unit's parts of the skeleton set the pending level (R195). -/
structure PutUnit.SetsLevel (u : PutUnit U) : Prop where
  setPendOff : ∀ x off, u.pendMel (u.setPendOff x off) = u.pendMel x
  complete : ∀ x, u.pendMel (u.complete x) = 0
  beginEnd : ∀ x mel, u.pendMel (u.beginEnd x mel) = mel - 1

variable {u : PutUnit U} {j : PutJob} {r : PutRun U}

theorem PutUnit.SetsLevel.flush (hu : u.SetsLevel) (h : u.PortLegal r) : u.PortLegal (u.flush j r).2 := by
  refine ⟨?_, u.flush_portInv j r h.1 h.2⟩
  obtain ⟨off, -, ⟨-, heq⟩ | ⟨-, heq⟩⟩ := u.flush_unit j r
  · rw [heq, hu.complete]
    exact Nat.zero_le _
  · rw [heq, hu.setPendOff]
    exact h.1

theorem PutUnit.SetsLevel.messageEnd (hu : u.SetsLevel) (hmel : j.mel ≤ 255) (h : u.PortLegal r) :
    u.PortLegal (u.messageEnd j r).2 := by
  unfold PutUnit.messageEnd
  split
  · refine hu.flush ⟨?_, h.2⟩
    simp only [hu.beginEnd]
    omega
  · exact h

/-- A put whose body adds legal events only adds legal events only. -/
theorem PutUnit.SetsLevel.run {body : PutJob → PutRun U → Flow × PutRun U} (hu : u.SetsLevel) (hmel : j.mel ≤ 255)
    (hbody : ∀ r, u.PortLegal r → u.PortLegal (body j r).2) (h : u.PortLegal r) : u.PortLegal (u.run body j r).2 :=
  u.run_keeps body j (fun _ h => h) (fun _ h _ => h) (fun r h => ⟨hbody r h, fun _ => hbody r h⟩)
    (fun _ h => hu.messageEnd hmel h) (fun _ h _ => ⟨hu.flush h, fun _ => hu.flush h⟩) r h

end

theorem encoderUnit_setsLevel : encoderUnit.SetsLevel := ⟨fun _ _ => rfl, fun _ => rfl, fun _ _ => rfl⟩
theorem decoderUnit_setsLevel : decoderUnit.SetsLevel := ⟨fun _ _ => rfl, fun _ => rfl, fun _ _ => rfl⟩
theorem grouperUnit_setsLevel : grouperUnit.SetsLevel := ⟨fun _ _ => rfl, fun _ => rfl, fun _ _ => rfl⟩

@[simp] theorem packByte_pendMel (e : Encoder) (v : Byte) : (packByte e v).pendMel = e.pendMel := by
  obtain ⟨_, _, _, h⟩ := packBits_frame ([7, 6, 5, 4, 3, 2, 1, 0].map v.getLsbD) e
  rw [packByte_eq_packBits, h]

@[simp] theorem accumulate_pendMel (d : Decoder) (v : Byte) : (accumulate d v).pendMel = d.pendMel := by
  obtain ⟨_, _, _, h⟩ := accumulateBits_frame ((List.range d.b).reverse.map v.getLsbD) d
  rw [accumulate_eq_accumulateBits, h]

@[simp] theorem Grouper.count_pendMel (g : Grouper) (k : Nat) : (g.count k).pendMel = g.pendMel := by
  unfold Grouper.count
  split <;> rfl

theorem encoderBody_portLegal (j : PutJob) (r : PutRun Encoder) (h : encoderUnit.PortLegal r) :
    encoderUnit.PortLegal (encoderBody j r).2 :=
  (encoderLoop_keeps j (P := fun _ r => encoderUnit.PortLegal r) (Q := encoderUnit.PortLegal) (fun _ h => h)
    (fun _ r h _ => ⟨by simpa [encoderUnit] using h.1, by simpa using h.2⟩)
    (fun _ r h => by
      have hopen : encoderUnit.PortLegal (openFull (packNext j r)) := ⟨Nat.zero_le _, by simpa using h.2⟩
      exact ⟨encoderUnit_setsLevel.flush hopen, fun _ => encoderUnit_setsLevel.flush hopen⟩) (j.n - r.pos) r h).1

theorem decoderBody_portLegal (j : PutJob) (r : PutRun Decoder) (h : decoderUnit.PortLegal r) :
    decoderUnit.PortLegal (decoderBody j r).2 :=
  (decoderLoop_keeps j (P := fun _ r => decoderUnit.PortLegal r) (Q := decoderUnit.PortLegal) (fun _ h => h)
    (fun _ _ h => h) (fun _ r h _ => ⟨by simpa [decoderUnit] using h.1, by simpa using h.2⟩)
    (fun _ r h => by
      have hopen : decoderUnit.PortLegal (openGroup (decodeNext j r)) := ⟨Nat.zero_le _, by simpa using h.2⟩
      exact ⟨decoderUnit_setsLevel.flush hopen, fun _ => decoderUnit_setsLevel.flush hopen⟩) (j.n - r.pos) r h).1

theorem forwardData_portLegal (j : PutJob) (m : Nat) (r : PutRun Grouper) (h : grouperUnit.PortLegal r) :
    grouperUnit.PortLegal (forwardData j m r).2 := by
  obtain ⟨k, -, -, hunit, -, hes, -⟩ := forwardLoop_spec j r.port.drawn r.port.answers r.port.history m r.unit r.pos
  refine ⟨?_, Port.inv_of_append h.2 hes⟩
  rw [forwardData, hunit]
  simpa [grouperUnit] using h.1

theorem separate_portLegal (j : PutJob) (r : PutRun Grouper) (h : grouperUnit.PortLegal r) :
    grouperUnit.PortLegal (separate j r).2 := by
  unfold separate
  split
  · exact grouperUnit_setsLevel.flush ⟨Nat.zero_le _, h.2⟩
  · exact h

theorem grouperBody_portLegal (j : PutJob) (r : PutRun Grouper) (h : grouperUnit.PortLegal r) :
    grouperUnit.PortLegal (grouperBody j r).2 := by
  unfold grouperBody
  split
  · split
    · exact forwardData_portLegal j _ r h
    · exact h
  · exact (groupLoop_keeps j (P := grouperUnit.PortLegal) (Q := grouperUnit.PortLegal) (fun _ h => h)
      (fun r h => ⟨separate_portLegal j r h, fun _ => separate_portLegal j r h⟩)
      (fun r h => ⟨forwardData_portLegal j _ r h, fun _ => forwardData_portLegal j _ r h⟩) (j.n - r.pos) r h).1

section
variable (s : State) (n : BitVec 4) (k : Bool) (m : Byte)

theorem State.encoderRun_portLegal (hm : (s.encoder n).pendMel ≤ 254) (hp : (s.portE n).Inv) :
    encoderUnit.PortLegal (s.encoderRun n k m).2 :=
  encoderUnit_setsLevel.run (s.putJob_mel_le _ n k m) (encoderBody_portLegal _) ⟨hm, hp⟩

theorem State.decoderRun_portLegal (hm : (s.decoder n).pendMel ≤ 254) (hp : (s.portD n).Inv) :
    decoderUnit.PortLegal (s.decoderRun n k m).2 :=
  decoderUnit_setsLevel.run (s.putJob_mel_le _ n k m) (decoderBody_portLegal _) ⟨hm, hp⟩

theorem State.grouperRun_portLegal (hm : (s.grouper n).pendMel ≤ 254) (hp : (s.portG n).Inv) :
    grouperUnit.PortLegal (s.grouperRun n k m).2 :=
  grouperUnit_setsLevel.run (s.putJob_mel_le _ n k m) (grouperBody_portLegal _) ⟨hm, hp⟩

end

end Sys2Proof.Machine
end

section
/-! SUPPORT. Every act keeps `STATUS`, `RESULT` and the latches legal, and the port histories (spec/10_state.md R22,
R24, R46, R47). -/

namespace Sys2Proof.Machine

variable {s t : State}

/-! ### Control (R22, R24, R47, R304) -/

/-- The control state is legal by its three fields. -/
theorem State.ControlInv.of_eq (hs : s.ControlInv) (hstatus : t.status = s.status) (hresult : t.result = s.result)
    (hlatch : t.latch = s.latch) : t.ControlInv := by
  obtain ⟨h1, h2, h3, h4, h5⟩ := hs
  rw [← hstatus, ← hlatch] at h2
  rw [← hstatus, ← hresult, ← hlatch] at h1
  rw [← hstatus] at h3 h4
  rw [← hstatus, ← hresult] at h5
  exact ⟨h1, h2, h3, h4, h5⟩

/-- A control state in which no command runs and nothing is reported. -/
theorem State.controlInv_of_zero (hstatus : t.status = Status.zero) (hlatch : t.latch = Latch.idle) : t.ControlInv where
  running hb := by simp [hstatus, Status.zero] at hb
  atRest _ := hlatch
  stalledEnd h := by simp [hstatus, Status.zero] at h
  named := by simp [hstatus, Status.zero]
  failed h := by simp [hstatus, Status.zero] at h

theorem State.startCommand_controlInv (s : State) (w : Word) : (s.startCommand w).ControlInv where
  running _ := ⟨rfl, rfl, rfl, rfl, rfl, rfl, Nat.zero_le _⟩
  atRest := nofun
  stalledEnd := nofun
  named := ⟨fun _ => rfl, fun _ => rfl⟩
  failed h := absurd rfl h

/-- Each end of a running command leaves a legal control state. -/
theorem State.ControlInv.raise (hs : s.ControlInv) (hb : s.status.busy = true) {code : ErrorCode} {arg : ArgIndex}
    (hc : code ≠ .ok) (ha : arg ≠ .nothing) : (s.raise code arg).ControlInv := by
  obtain ⟨-, hstalled, -, -, hresult, -⟩ := hs.running hb
  exact
    { running := nofun
      atRest := fun _ => rfl
      stalledEnd := fun h => absurd h (by simp [hstalled])
      named := ⟨fun h => absurd h hc, fun h => absurd h ha⟩
      failed := fun _ => ⟨hresult, rfl⟩ }

theorem State.ControlInv.finish (hs : s.ControlInv) (hb : s.status.busy = true) (r : Word) : (s.finish r).ControlInv := by
  obtain ⟨-, hstalled, herr, -, -, -⟩ := hs.running hb
  exact
    { running := nofun
      atRest := fun _ => rfl
      stalledEnd := fun h => absurd h (by simp [hstalled])
      named := hs.named
      failed := fun h => absurd herr h }

theorem State.ControlInv.stall (hs : s.ControlInv) (hb : s.status.busy = true) (r : Word) : (s.stall r).ControlInv := by
  obtain ⟨-, -, herr, -, -, -⟩ := hs.running hb
  exact
    { running := nofun
      atRest := fun _ => rfl
      stalledEnd := fun _ => ⟨rfl, herr⟩
      named := hs.named
      failed := fun h => absurd herr h }

/-- A put that waits keeps its cursor inside the input. -/
theorem State.ControlInv.setProgress (hs : s.ControlInv) (hb : s.status.busy = true) {pos : Nat} (hpos : pos ≤ s.len3)
    (events : Nat) : (s.setProgress pos events).ControlInv := by
  obtain ⟨hdone, hstalled, herr, harg, hresult, hk, -⟩ := hs.running hb
  exact
    { running := fun _ => ⟨hdone, hstalled, herr, harg, hresult, hk, hpos⟩
      atRest := fun h => absurd hb (by simp [show s.status.busy = false from h])
      stalledEnd := hs.stalledEnd
      named := hs.named
      failed := hs.failed }

theorem State.ControlInv.endPut (hs : s.ControlInv) (hb : s.status.busy = true) (f : Flow) {pos : Nat}
    (hpos : pos ≤ s.len3) (events : Nat) : (s.endPut f pos events).ControlInv := by
  cases f with
  | go => exact hs.finish hb _
  | stall => exact hs.stall hb _
  | wait => exact hs.setProgress hb hpos _

/-- The cursor of a running command lies inside its input. -/
theorem State.ControlInv.pos_le (hs : s.ControlInv) (hb : s.status.busy = true) : s.latch.pos ≤ s.len3 :=
  (hs.running hb).2.2.2.2.2.2

theorem Effect.controlInv (hs : s.ControlInv) (hb : s.status.busy = true) (h : Effect s t) : t.ControlInv := by
  have hpos := hs.pos_le hb
  cases h with
  | memory m r => exact (hs.of_eq (t := s.setMem m) rfl rfl rfl).finish hb r
  | context n c r hc => exact (hs.of_eq (t := s.setAesCtx n c) rfl rfl rfl).finish hb r
  | encoderInit n e r he => exact (hs.of_eq (t := s.setEncoder n e) rfl rfl rfl).finish hb r
  | decoderInit n d r hd => exact (hs.of_eq (t := s.setDecoder n d) rfl rfl rfl).finish hb r
  | grouperInit n g r hg => exact (hs.of_eq (t := s.setGrouper n g) rfl rfl rfl).finish hb r
  | encoderPut n k m events hv =>
    exact (hs.of_eq (t := (s.setEncoder n _).setPortE n _) rfl rfl rfl).endPut hb _ (s.encoderRun_pos n k m hpos) _
  | decoderPut n k m events hv =>
    exact (hs.of_eq (t := (s.setDecoder n _).setPortD n _) rfl rfl rfl).endPut hb _ (s.decoderRun_pos n k m hpos) _
  | grouperPut n k m events hv =>
    exact (hs.of_eq (t := (s.setGrouper n _).setPortG n _) rfl rfl rfl).endPut hb _ (s.grouperRun_pos n k m hpos) _

theorem Act.controlInv (hs : s.ControlInv) (h : Act s t) : t.ControlInv := by
  cases h with
  | start w hb => exact s.startCommand_controlInv w
  | overrun v => exact ⟨hs.running, hs.atRest, hs.stalledEnd, hs.named, hs.failed⟩
  | sink q k => exact hs.of_eq (by simp) (by simp) (by simp)
  | reset => exact State.controlInv_of_zero (by simp) (by simp)
  | raise code arg hb hc ha => exact hs.raise hb hc ha
  | effect hb h => exact h.controlInv hs hb
  | idle => exact hs
  | args | read | store | load => exact hs.of_eq rfl rfl rfl

/-! ### Ports (R46, R191, R192, R195) -/

theorem Port.empty_inv : Port.empty.Inv := nofun
theorem Port.clear_inv (p : Port) : p.clear.Inv := nofun

theorem State.PortInv.port (hs : s.PortInv) (u : FilterUnit) (n : BitVec 4) : (s.port u n).Inv := by
  obtain ⟨hE, hD, hG, -, -, -⟩ := hs
  cases u with
  | encoder => exact entry_of_forall hE _ Port.empty_inv
  | decoder => exact entry_of_forall hD _ Port.empty_inv
  | grouper => exact entry_of_forall hG _ Port.empty_inv

theorem State.PortInv.setPort (hs : s.PortInv) (u : FilterUnit) (n : BitVec 4) {p : Port} (hp : p.Inv) :
    (s.setPort u n p).PortInv := by
  obtain ⟨hE, hD, hG, hlevels⟩ := hs
  cases u with
  | encoder => exact ⟨forall_mem_setEntry hE n.toNat hp, hD, hG, hlevels⟩
  | decoder => exact ⟨hE, forall_mem_setEntry hD n.toNat hp, hG, hlevels⟩
  | grouper => exact ⟨hE, hD, forall_mem_setEntry hG n.toNat hp, hlevels⟩

theorem State.reset_levels : (∀ e ∈ State.reset.enc.toList, e.pendMel ≤ 254) ∧
    (∀ d ∈ State.reset.dec.toList, d.pendMel ≤ 254) ∧ ∀ g ∈ State.reset.grp.toList, g.pendMel ≤ 254 :=
  ⟨forall_mem_replicate _ (Nat.zero_le _), forall_mem_replicate _ (Nat.zero_le _), forall_mem_replicate _ (Nat.zero_le _)⟩

theorem State.restart_portInv (s : State) : s.restart.PortInv :=
  ⟨forall_mem_mapBank fun p _ => p.clear_inv, forall_mem_mapBank fun p _ => p.clear_inv,
    forall_mem_mapBank fun p _ => p.clear_inv, State.reset_levels⟩

theorem State.sinkAnswer_portInv (hs : s.PortInv) (q : PortId) (k : Nat) : (s.sinkAnswer q k).PortInv := by
  obtain ⟨hE, hD, hG, hlevels⟩ := hs
  cases q with
  | outE i =>
    have hp : ((entry s.outE i.val Port.empty).addAnswer k).Inv := entry_of_forall hE i.val Port.empty_inv
    exact ⟨forall_mem_setEntry hE i.val hp, hD, hG, hlevels⟩
  | outD i =>
    have hp : ((entry s.outD i.val Port.empty).addAnswer k).Inv := entry_of_forall hD i.val Port.empty_inv
    exact ⟨hE, forall_mem_setEntry hD i.val hp, hG, hlevels⟩
  | outG i =>
    have hp : ((entry s.outG i.val Port.empty).addAnswer k).Inv := entry_of_forall hG i.val Port.empty_inv
    exact ⟨hE, hD, forall_mem_setEntry hG i.val hp, hlevels⟩

theorem Effect.portInv (hs : s.PortInv) (h : Effect s t) : t.PortInv := by
  obtain ⟨hE, hD, hG, he, hd, hg⟩ := id hs
  cases h with
  | memory | context => exact hs
  | encoderInit n e r hinv => exact ⟨hE, hD, hG, forall_mem_setEntry he n.toNat hinv.pending.2.2, hd, hg⟩
  | decoderInit n d r hinv => exact ⟨hE, hD, hG, he, forall_mem_setEntry hd n.toNat hinv.pending.2.2, hg⟩
  | grouperInit n g r hinv => exact ⟨hE, hD, hG, he, hd, forall_mem_setEntry hg n.toNat hinv.pendMel_le⟩
  | encoderPut n k m events hv =>
    obtain ⟨hm, hp⟩ := s.encoderRun_portLegal n k m (entry_of_forall he _ (Nat.zero_le _)) (hs.port .encoder n)
    simp only [State.PortInv, State.endPut_outE, State.endPut_outD, State.endPut_outG, State.endPut_enc,
      State.endPut_dec, State.endPut_grp]
    exact ⟨forall_mem_setEntry hE n.toNat hp, hD, hG, forall_mem_setEntry he n.toNat hm, hd, hg⟩
  | decoderPut n k m events hv =>
    obtain ⟨hm, hp⟩ := s.decoderRun_portLegal n k m (entry_of_forall hd _ (Nat.zero_le _)) (hs.port .decoder n)
    simp only [State.PortInv, State.endPut_outE, State.endPut_outD, State.endPut_outG, State.endPut_enc,
      State.endPut_dec, State.endPut_grp]
    exact ⟨hE, forall_mem_setEntry hD n.toNat hp, hG, he, forall_mem_setEntry hd n.toNat hm, hg⟩
  | grouperPut n k m events hv =>
    obtain ⟨hm, hp⟩ := s.grouperRun_portLegal n k m (entry_of_forall hg _ (Nat.zero_le _)) (hs.port .grouper n)
    simp only [State.PortInv, State.endPut_outE, State.endPut_outD, State.endPut_outG, State.endPut_enc,
      State.endPut_dec, State.endPut_grp]
    exact ⟨hE, hD, forall_mem_setEntry hG n.toNat hp, he, hd, forall_mem_setEntry hg n.toNat hm⟩

/-- What the engine's next turn would leave has legal histories. -/
theorem State.PortInv.ranOn (hs : s.PortInv) (i : Instr) : (s.ranOn i).PortInv := by
  unfold State.ranOn
  split
  · rename_i h
    rcases exec_raise_or_effect h with ⟨code, arg, -, -, rfl⟩ | he
    · exact hs
    · exact he.effect.portInv hs
  · exact hs
  · exact hs

theorem State.PortInv.applyReset (hs : s.PortInv) : s.applyReset.PortInv := by
  rcases State.applyReset_cases s with h | ⟨i, u, n, -, -, h⟩ <;> rw [h]
  · exact s.restart_portInv
  · refine s.restart_portInv.setPort u n fun e he => ?_
    exact (Port.mem_interrupt he).elim (hs.port u n e) ((hs.ranOn i).port u n e)

theorem Act.portInv (hs : s.PortInv) (h : Act s t) : t.PortInv := by
  cases h with
  | sink q k => exact State.sinkAnswer_portInv hs q k
  | reset => exact hs.applyReset
  | effect hb h => exact h.portInv hs
  | _ => exact hs

end Sys2Proof.Machine
end

section
/-! PROOF. The invariants of spec/10_state.md on the register block and on the output ports. -/

namespace Sys2Proof.Proofs

open Sys2Proof.Machine

/-- Settles O53: every end of a command gives the latches up, an error leaves the `RESULT` that the start
cleared, and a put that waits keeps its cursor inside the input. -/
theorem stepKeepsControlLegal : Obligations.StepKeepsControlLegal :=
  step_keeps (fun _ _ _ _ h => h.of_eq rfl rfl rfl) (fun _ _ hs h => h.controlInv hs)

/-- Settles O59: an emission's events carry the pending level, which comes from a `mel` of at most 255, and a
reset keeps events that were there or that the interrupted put would have added. -/
theorem stepKeepsHistoriesLegal : Obligations.StepKeepsHistoriesLegal :=
  step_keeps (fun _ _ _ _ h => h) (fun _ _ hs h => h.portInv hs)

end Sys2Proof.Proofs
end

section
/-! SUPPORT. What the engine does not look at (spec/10_state.md R21): a command runs the same whatever the argument
registers hold, whatever the host has read and whatever acts are listed. -/

namespace Sys2Proof.Machine

variable {s t : State} (a : Args) (is : List Input) (rd : Word)

/-- Every command answers (R304). -/
theorem exec_next (i : Instr) (s : State) : ∃ t, exec i s = .next t := by
  cases i with
  | aesClearKey n => exact State.guarded_next s [] _
  | _ => exact State.guarded_next _ _ _

theorem State.guarded_withHost {cs : List Check} {effect : State} (h : s.guarded cs effect = .next t) :
    (s.withHost a is rd).guarded cs (effect.withHost a is rd) = .next (t.withHost a is rd) := by
  rcases State.guarded_cases h with ⟨c, -, -, hf, rfl⟩ | ⟨hp, rfl⟩
  · exact State.guarded_of_failure hf
  · exact State.guarded_of_pass hp

theorem State.endPut_withHost (s : State) (f : Flow) (pos events : Nat) :
    (s.withHost a is rd).endPut f pos events = (s.endPut f pos events).withHost a is rd := by
  cases f <;> rfl

theorem bulkLoop_withHost (c : AesCtx) (f : BulkFlags) (n : Nat) (s : State) :
    bulkLoop c f n (s.withHost a is rd) = (bulkLoop c f n s).withHost a is rd := by
  induction n generalizing s with
  | zero => rfl
  | succ n ih => exact ih (bulkBlock c f s)

/-- A command with other contents of what the engine does not look at does the same. -/
theorem exec_withHost {i : Instr} (h : exec i s = .next t) :
    exec i (s.withHost a is rd) = .next (t.withHost a is rd) := by
  cases i with
  | aesProcessBlocks n x y d c =>
    have hloop := bulkLoop_withHost a is rd (s.aesCtx n) ⟨x, y, d, c⟩ (s.blockCount - s.latch.k) s
    have hg := State.guarded_withHost a is rd h
    rw [← hg]
    exact congrArg (fun u => (s.withHost a is rd).guarded (bulkChecks n ⟨x, y, d, c⟩ s)
      (u.finish (BitVec.ofNat 32 (s.len3 % 16)))) hloop
  | bencPut n k m =>
    rw [← State.guarded_withHost a is rd h, ← State.endPut_withHost]
    rfl
  | bdecPut n k m =>
    rw [← State.guarded_withHost a is rd h, ← State.endPut_withHost]
    rfl
  | grpPut n k m =>
    rw [← State.guarded_withHost a is rd h, ← State.endPut_withHost]
    rfl
  | aesClearKey n => exact State.guarded_withHost (s := s) (cs := []) a is rd h
  | _ => exact State.guarded_withHost a is rd h

/-- A command does not write what the engine does not look at. -/
theorem exec_host {i : Instr} (h : exec i s = .next t) : t.args = s.args ∧ t.inputs = s.inputs ∧ t.rdData = s.rdData := by
  rcases exec_raise_or_effect h with ⟨code, arg, -, -, rfl⟩ | he
  · exact ⟨rfl, rfl, rfl⟩
  · cases he.effect <;> simp

theorem State.ranOn_of_exec {i : Instr} (h : exec i s = .next t) : s.ranOn i = t := by
  unfold State.ranOn
  rw [h]

theorem State.ranOn_withHost (i : Instr) : (s.withHost a is rd).ranOn i = (s.ranOn i).withHost a is rd := by
  obtain ⟨t, h⟩ := exec_next i s
  rw [State.ranOn_of_exec h, State.ranOn_of_exec (exec_withHost a is rd h)]

end Sys2Proof.Machine
end

section
/-! SUPPORT. The register block as the host sees it (spec/10_state.md R20 to R26): one equation per access, and the
fields of the words `STATUS` and `ID`. -/

namespace Sys2Proof.Machine

/-! ### Accesses -/

variable (s : State) (rest : List Input)

/-- A legal write has the effect of its register. -/
theorem step_writeReg {offset : Nat} (w : Word) (h : legalAccess offset 32 = true) :
    step { s with inputs := .writeReg offset 32 w :: rest } =
      .next (State.writeRegister { s with inputs := rest } offset w) := by
  rw [step_of_inputs_cons rfl]
  exact if_pos h

/-- A legal read answers what its register holds, and changes nothing else. -/
theorem step_readReg {offset : Nat} (h : legalAccess offset 32 = true) :
    step { s with inputs := .readReg offset 32 :: rest } =
      .next { s with inputs := rest, rdData := s.readRegister offset } := by
  rw [step_of_inputs_cons rfl]
  exact if_pos h

/-- A reset is always answered. -/
theorem step_reset :
    step { s with inputs := .reset :: rest } = .next (s.withHost s.args rest s.rdData).applyReset := by
  rw [step_of_inputs_cons rfl]
  rfl

/-- The aligned offsets from 0x28 to 0x3C are legal and name no register (R26). -/
theorem reserved_offset_cases {offset : Nat} (h1 : 0x28 ≤ offset) (h2 : offset ≤ 0x3C) (h4 : offset % 4 = 0) :
    legalAccess offset 32 = true ∧ (∀ s : State, s.readRegister offset = 0) ∧
      ∀ (s : State) (w : Word), s.writeRegister offset w = s := by
  obtain rfl | rfl | rfl | rfl | rfl | rfl :
      offset = 0x28 ∨ offset = 0x2C ∨ offset = 0x30 ∨ offset = 0x34 ∨ offset = 0x38 ∨ offset = 0x3C := by omega
  all_goals exact ⟨rfl, fun _ => rfl, fun _ _ => rfl⟩

/-- A write to `STATUS` clears `OVERRUN` or keeps it (R22). -/
theorem State.writeStatus_eq (w : Word) :
    s.writeStatus w = { s with status := { s.status with overrun := s.status.overrun && !w.getLsbD 3 } } := by
  unfold State.writeStatus
  cases w.getLsbD 3 <;> simp

/-! ### Fields of words -/

/-- The fields of a `STATUS` word put together from its parts (R22). -/
theorem statusFields (e : BitVec 8) (a : BitVec 4) (o st d b : Bool) :
    let w : Word := 0#12 ++ a ++ e ++ 0#4 ++ BitVec.ofBool o ++ BitVec.ofBool st ++ BitVec.ofBool d ++ BitVec.ofBool b
    w.getLsbD 0 = b ∧ w.getLsbD 1 = d ∧ w.getLsbD 2 = st ∧ w.getLsbD 3 = o ∧ w.extractLsb' 4 4 = 0 ∧
      w.extractLsb' 8 8 = e ∧ w.extractLsb' 16 4 = a ∧ w.extractLsb' 20 12 = 0 := by
  refine ⟨?_, ?_, ?_, ?_, ?_, ?_, ?_, ?_⟩
  case refine_1 | refine_2 | refine_3 | refine_4 =>
    simp only [BitVec.getLsbD_append]
    simp
  all_goals
    apply BitVec.eq_of_getLsbD_eq
    intro i hi
    rw [BitVec.getLsbD_extractLsb']
    simp only [BitVec.getLsbD_append]
    interval_cases i <;> simp

/-- The fields of an `ID` word put together from its parts (R25). -/
theorem idFields (m : BitVec 8) (w : BitVec 5) (c : Bool) (g d e a : BitVec 4) :
    let x : Word := 0#2 ++ m ++ w ++ BitVec.ofBool c ++ g ++ d ++ e ++ a
    x.extractLsb' 0 4 = a ∧ x.extractLsb' 4 4 = e ∧ x.extractLsb' 8 4 = d ∧ x.extractLsb' 12 4 = g ∧
      x.getLsbD 16 = c ∧ x.extractLsb' 17 5 = w ∧ x.extractLsb' 22 8 = m ∧ x.extractLsb' 30 2 = 0 := by
  refine ⟨?_, ?_, ?_, ?_, ?_, ?_, ?_, ?_⟩
  case refine_5 =>
    simp only [BitVec.getLsbD_append]
    simp
  all_goals
    apply BitVec.eq_of_getLsbD_eq
    intro i hi
    rw [BitVec.getLsbD_extractLsb']
    simp only [BitVec.getLsbD_append]
    interval_cases i <;> simp

end Sys2Proof.Machine
end

section
/-! SUPPORT. What a reset leaves (spec/10_state.md R48, spec/70_reset_and_hazards.md R300, R301): the reset values,
memory outside the destinations of the running command, and the histories. -/

namespace Sys2Proof.Machine

open Sys2Proof.Statements

variable {s t : State}

/-! ### Reset values -/

theorem entry_replicate_of_lt {α : Type} {n i : Nat} (a d : α) (h : i < n) : entry (Vector.replicate n a) i d = a := by
  simp only [entry, Vector.toList_replicate, List.getD_eq_getElem?_getD, List.getElem?_replicate, h, if_true,
    Option.getD_some]

/-- A state with the registers, latches and banks of the reset state has the reset values (R48). -/
theorem resetValues_of_eq (hargs : t.args = Args.zero) (hresult : t.result = 0) (hstatus : t.status = Status.zero)
    (hlatch : t.latch = Latch.idle) (haes : t.aes = State.reset.aes) (henc : t.enc = State.reset.enc)
    (hdec : t.dec = State.reset.dec) (hgrp : t.grp = State.reset.grp) : ResetValues t where
  registers := ⟨hargs, hresult, hstatus ▸ rfl⟩
  latches := hlatch
  aes := haes ▸ forall_mem_replicate _ ⟨rfl, rfl, rfl, fun _ => entry_replicate _ _⟩
  encoders := henc ▸ forall_mem_replicate _
    ⟨rfl, rfl, rfl, rfl, rfl, rfl, rfl, rfl, rfl, rfl, rfl, fun _ => entry_replicate _ _, fun _ => entry_replicate _ _⟩
  decoders := hdec ▸ forall_mem_replicate _
    ⟨rfl, rfl, rfl, rfl, rfl, rfl, rfl, rfl, rfl, fun _ hk => entry_replicate_of_lt _ _ hk, fun _ => entry_replicate _ _⟩
  groupers := hgrp ▸ forall_mem_replicate _
    ⟨rfl, rfl, rfl, rfl, rfl, rfl, rfl, rfl, fun _ => entry_replicate _ _, fun _ => entry_replicate _ _⟩

theorem State.applyReset_resetValues (s : State) : ResetValues s.applyReset :=
  resetValues_of_eq s.applyReset_args s.applyReset_result s.applyReset_status s.applyReset_latch s.applyReset_aes
    s.applyReset_enc s.applyReset_dec s.applyReset_grp

/-! ### The running command -/

theorem State.running_eq_some {i : Instr} : s.running = some i ↔ s.status.busy = true ∧ decode s.latch.cmd = .ok i := by
  unfold State.running
  split
  · rename_i hb
    cases decode s.latch.cmd <;> simp [hb]
  · rename_i hb
    simp [hb]

theorem State.running_of_rest (h : s.status.busy = false) : s.running = none := by
  simp [State.running, h]

/-- A word that decodes stands for a legal command (R90). -/
theorem decode_wellFormed {w : Word} {i : Instr} (h : decode w = .ok i) : i.WellFormed := by
  unfold decode at h
  split at h
  · cases h
  · simp only at h
    split at h
    · cases h
      assumption
    · cases h

/-! ### Memory -/

/-- Only the destinations of the running command are unsettled. -/
theorem State.mem_unsettled {r : AddrRange} (h : r ∈ s.unsettled) : ∃ i, s.running = some i ∧ r ∈ destinations i s := by
  unfold State.unsettled at h
  split at h
  · simp at h
  · split at h
    · exact ⟨_, ‹_›, h⟩
    · simp at h

/-- Tearing ranges leaves every address outside them alone. -/
theorem tearRanges_read_outside (k : Nat) (rs : List AddrRange) (m : Memory) (a : Nat) (h : inRanges rs a = false) :
    (rs.foldl (tearRange k) m).read a = m.read a := by
  induction rs generalizing m with
  | nil => rfl
  | cons r rs ih =>
    simp only [inRanges, List.any_cons, Bool.or_eq_false_iff, decide_eq_false_iff_not] at h
    rw [List.foldl_cons, ih _ h.2, tearRange_read_outside k m r a h.1]

/-- A reset leaves memory outside the destinations of the running command alone (R301). -/
theorem State.tornMemory_read (a : Nat) (h : ∀ i, s.running = some i → inRanges (destinations i s) a = false) :
    s.tornMemory.read a = s.mem.read a := by
  refine tearRanges_read_outside _ _ _ _ (List.any_eq_false.mpr fun r hr => ?_)
  obtain ⟨i, hi, hd⟩ := State.mem_unsettled hr
  exact List.any_eq_false.mp (h i hi) r hd

/-- The destinations come from the latches and the contexts. -/
theorem destinations_withHost (i : Instr) (a : Args) (is : List Input) (rd : Word) :
    destinations i (s.withHost a is rd) = destinations i s := by
  cases i <;> rfl

/-! ### Histories -/

theorem State.restart_port (s : State) (u : FilterUnit) (n : BitVec 4) : (s.restart.port u n).history = [] := by
  cases u with
  | encoder => exact entry_of_forall (p := fun p : Port => p.history = []) (forall_mem_mapBank fun _ _ => rfl) _ rfl
  | decoder => exact entry_of_forall (p := fun p : Port => p.history = []) (forall_mem_mapBank fun _ _ => rfl) _ rfl
  | grouper => exact entry_of_forall (p := fun p : Port => p.history = []) (forall_mem_mapBank fun _ _ => rfl) _ rfl

/-- How many ports a unit has (R6). -/
def portCount : FilterUnit → Nat
  | .encoder => Config.params.nBenc
  | .decoder => Config.params.nBdec
  | .grouper => Config.params.nGrp

theorem State.port_setPort_same (s : State) {u : FilterUnit} {n : BitVec 4} (p : Port) (h : n.toNat < portCount u) :
    (s.setPort u n p).port u n = p := by
  cases u with
  | encoder => exact s.portE_setPortE n p h
  | decoder => exact s.portD_setPortD n p h
  | grouper => exact s.portG_setPortG n p h

theorem State.port_setPort_other (s : State) {u u' : FilterUnit} {n n' : BitVec 4} (p : Port) (h : (u', n') ≠ (u, n)) :
    (s.setPort u' n' p).port u n = s.port u n := by
  have hn : u' = u → n'.toNat ≠ n.toNat := fun hu heq => h (by rw [hu, BitVec.eq_of_toNat_eq heq])
  cases u <;> cases u'
  case encoder.encoder | decoder.decoder | grouper.grouper => exact entry_setEntry_other _ _ _ _ _ (hn rfl)
  all_goals rfl

/-- A legal put names a port that exists. -/
theorem putInstance_lt {i : Instr} {u : FilterUnit} {n : BitVec 4} (hw : i.WellFormed) (h : putInstance i = some (u, n)) :
    n.toNat < portCount u := by
  cases i <;> cases h <;> exact of_decide_eq_true hw

theorem State.applyReset_of_rest (h : s.running = none) : s.applyReset = s.restart := by
  simp only [State.applyReset, h]

theorem State.applyReset_of_put {i : Instr} {u : FilterUnit} {n : BitVec 4} (hi : s.running = some i)
    (h : putInstance i = some (u, n)) :
    s.applyReset = s.restart.setPort u n
      ((s.port u n).interrupt ((s.ranOn i).port u n) s.latch.events (Config.resetCut s.freeCount)) := by
  simp only [State.applyReset, hi, h]

/-- A reset empties the history of every port but that of an interrupted put (R300, R301). -/
theorem State.applyReset_port_cleared {u : FilterUnit} {n : BitVec 4}
    (h : ∀ i, s.running = some i → putInstance i ≠ some (u, n)) : (s.applyReset.port u n).history = [] := by
  rcases State.applyReset_cases s with heq | ⟨i, u', n', hi, hp, heq⟩ <;> rw [heq]
  · exact s.restart_port u n
  · rw [State.port_setPort_other _ _ fun hc => h i hi (hc ▸ hp)]
    exact s.restart_port u n

/-- A reset keeps, in the port of an interrupted put, what the put has recorded and a first part of what its
next turn would add (R301). -/
theorem State.applyReset_port_of_put {i : Instr} {u : FilterUnit} {n : BitVec 4} (hi : s.running = some i)
    (h : putInstance i = some (u, n)) :
    ∃ more, more <+: ((s.ranOn i).port u n).history.drop (s.port u n).history.length ∧
      (s.applyReset.port u n).history =
        (s.port u n).history.drop ((s.port u n).history.length - s.latch.events) ++ more := by
  have hw := decode_wellFormed (State.running_eq_some.mp hi).2
  rw [State.applyReset_of_put hi h, State.port_setPort_same _ _ (putInstance_lt hw h)]
  exact ⟨_, List.take_prefix _ _, rfl⟩

end Sys2Proof.Machine
end

section
/-! PROOF. The statements of spec/10_state.md on the register block and on reset. -/

namespace Sys2Proof.Proofs

open Sys2Proof.Machine Sys2Proof.Statements

/-- Settles O6: a write starts the command or sets `OVERRUN`, a read finds no register at 0, and no command
looks at the argument registers. -/
theorem cmdRegisterStartsCommands : Obligations.CmdRegisterStartsCommands := by
  refine ⟨fun s w rest => ⟨fun hb => ?atRest, fun hb => ?busy, ?read⟩, fun i s t a h => ?latchesOnly⟩
  case atRest =>
    rw [step_writeReg s rest w rfl]
    exact congrArg _ (if_neg (by simp [hb]))
  case busy =>
    rw [step_writeReg s rest w rfl]
    exact congrArg _ (if_pos hb)
  case read => exact step_readReg s rest rfl
  case latchesOnly =>
    obtain ⟨-, hinputs, hrd⟩ := exec_host h
    have ha := exec_withHost a s.inputs s.rdData h
    have ht : t.withHost a s.inputs s.rdData = { t with args := a } := by
      rw [← hinputs, ← hrd]
      rfl
    exact ha.trans (congrArg _ ht)

/-- Settles O7: each of the six offsets names its own register. -/
theorem argumentRegistersReadBack : Obligations.ArgumentRegistersReadBack := by
  intro s w k rest hk
  have hlegal : legalAccess (0x08 + 4 * k) 32 = true := by interval_cases k <;> rfl
  rw [step_writeReg s rest w hlegal, step_readReg s rest hlegal]
  interval_cases k
  all_goals
    refine ⟨⟨_, rfl, rfl, fun j hj hne => ?_⟩, rfl⟩
    interval_cases j <;> simp [argument] at hne ⊢

/-- Settles O8: the fields of the word, the two tables of numbers, and the three accesses. -/
theorem statusWordLayout : Obligations.StatusWordLayout := by
  refine ⟨fun s => ?_, rfl, rfl, fun s w rest => ⟨?_, ?_, ?_⟩⟩
  · exact statusFields s.err.code s.errArg.code s.overrun s.stalled s.done s.busy
  · rw [step_writeReg s rest w rfl]
    exact congrArg _ (State.writeStatus_eq _ w)
  · exact step_readReg s rest rfl
  · exact step_readReg s rest rfl

/-- Settles O9: no register stands at a reserved offset. -/
theorem reservedOffsetsReadZeroAndIgnoreWrites : Obligations.ReservedOffsetsReadZeroAndIgnoreWrites := by
  intro s w offset rest h1 h2 h4
  obtain ⟨hlegal, hread, hwrite⟩ := reserved_offset_cases h1 h2 h4
  rw [step_readReg s rest hlegal, step_writeReg s rest w hlegal, hread, hwrite]
  exact ⟨rfl, rfl⟩

/-- Settles O11: the fields of the word, each wide enough for every legal parameter, and its value for each of
the two counter widths. -/
theorem idRegisterHoldsParameters : Obligations.IdRegisterHoldsParameters := by
  refine ⟨fun s rest => step_readReg s rest rfl, fun c ha he hd hg hw hm => ?fields, ?value⟩
  case fields =>
    obtain ⟨fa, fe, fd, fg, fc, fw, fm, fr⟩ := idFields (BitVec.ofNat 8 c.maxStr) (BitVec.ofNat 5 (c.aw - 1))
      (c.ctrIncBytes == 16) (BitVec.ofNat 4 (c.nGrp - 1)) (BitVec.ofNat 4 (c.nBdec - 1)) (BitVec.ofNat 4 (c.nBenc - 1))
      (BitVec.ofNat 4 (c.nAes - 1))
    rw [idWord, fa, fe, fd, fg, fc, fw, fm, fr]
    simp only [BitVec.toNat_ofNat]
    refine ⟨Nat.mod_eq_of_lt ?_, Nat.mod_eq_of_lt ?_, Nat.mod_eq_of_lt ?_, Nat.mod_eq_of_lt ?_, trivial,
      Nat.mod_eq_of_lt ?_, Nat.mod_eq_of_lt ?_, trivial⟩ <;> omega
  case value =>
    unfold idWord
    rcases ctrIncBytes_cases with h | h <;> rw [h] <;> rfl

/-- Settles O12: at rest no port is kept and no byte is torn. -/
theorem resetGivesResetValues : Obligations.ResetGivesResetValues := by
  intro s rest hb
  have hrest : (s.withHost s.args rest s.rdData).running = none := State.running_of_rest hb
  have heq := State.applyReset_of_rest hrest
  refine ⟨_, step_reset s rest, State.applyReset_resetValues _, ?_, ?_, ?_, fun a => ?_⟩
  · rw [heq]
    exact forall_mem_mapBank fun _ _ => rfl
  · rw [heq]
    exact forall_mem_mapBank fun _ _ => rfl
  · rw [heq]
    exact forall_mem_mapBank fun _ _ => rfl
  · rw [State.applyReset_mem]
    exact State.tornMemory_read a fun i hi => nomatch hrest.symm.trans hi

/-- Settles O13: only destinations are torn, and only the port of the running put keeps events, which the
list of acts does not change. -/
theorem resetDuringCommandKeepsTheRest : Obligations.ResetDuringCommandKeepsTheRest := by
  intro s rest hb
  have hrunning : ∀ i, (s.withHost s.args rest s.rdData).running = some i ↔ decode s.latch.cmd = .ok i := fun i =>
    State.running_eq_some.trans (and_iff_right hb)
  refine ⟨_, step_reset s rest, State.applyReset_resetValues _, fun a ha => ?memory, fun u n hn => ?others,
    fun i u n hi hp => ?interrupted⟩
  case memory =>
    rw [State.applyReset_mem]
    refine State.tornMemory_read a fun i hi => ?_
    rw [destinations_withHost]
    exact ha i ((hrunning i).mp hi)
  case others => exact State.applyReset_port_cleared fun i hi => hn i ((hrunning i).mp hi)
  case interrupted =>
    have hkept := State.applyReset_port_of_put ((hrunning i).mpr hi) hp
    rw [State.ranOn_withHost] at hkept
    cases u <;> exact hkept

/-- Settles O60: the reset values are the empty contexts, instances and ports, each legal. -/
theorem resetStateIsLegal : Obligations.ResetStateIsLegal := by
  refine ⟨resetValues_of_eq rfl rfl rfl rfl rfl rfl rfl rfl, rfl, rfl, fun u n => ?_, ?_⟩
  · cases u <;> exact congrArg Port.history (entry_replicate _ _)
  · have hport : ∀ n, ∀ p ∈ (Vector.replicate n Port.empty).toList, p.Inv := fun n => forall_mem_replicate n Port.empty_inv
    exact
      { control := State.controlInv_of_zero rfl rfl
        memory := ⟨⟨List.Pairwise.nil, nofun⟩, nofun⟩
        aes := State.reset_aesInv
        encoder := State.reset_encoderInv
        decoder := State.reset_decoderInv
        grouper := State.reset_grouperInv
        port := ⟨hport _, hport _, hport _, State.reset_levels⟩ }

end Sys2Proof.Proofs
end

section
/-! SUPPORT. Where a step may write memory (spec/20_memory.md R60 to R62): a command writes inside its destinations
only, these lie inside memory unless it raises an error, and a reset tears nothing else (R301). -/

namespace Sys2Proof.Machine

/-! ### Writes inside given ranges -/

/-- `m'` is `m` after writes inside the ranges `rs`: the canonical form is kept, and only addresses of these ranges
are newly listed. -/
structure Memory.WrittenWithin (rs : List AddrRange) (m m' : Memory) : Prop where
  wf : m.Wf → m'.Wf
  listed : ∀ c ∈ m', c ∈ m ∨ ∃ r ∈ rs, r.1 ≤ c.1 ∧ c.1 < r.1 + r.2

/-- Every range ends inside memory (R62). -/
def InsideMemory (rs : List AddrRange) : Prop := ∀ r ∈ rs, r.1 + r.2 ≤ memSize

section
variable {rs : List AddrRange} {m m' m'' : Memory}

theorem Memory.WrittenWithin.refl (rs : List AddrRange) (m : Memory) : Memory.WrittenWithin rs m m := ⟨id, fun _ => .inl⟩

theorem Memory.WrittenWithin.trans (h : Memory.WrittenWithin rs m m') (h' : Memory.WrittenWithin rs m' m'') :
    Memory.WrittenWithin rs m m'' :=
  ⟨fun hm => h'.wf (h.wf hm), fun c hc => (h'.listed c hc).elim (h.listed c) .inr⟩

theorem Memory.writeN_writtenWithin {r : AddrRange} (hr : r ∈ rs) (m : Memory) {a : Nat} {v : List Byte} (ha : r.1 ≤ a)
    (hv : a + v.length ≤ r.1 + r.2) : Memory.WrittenWithin rs m (m.writeN a v) where
  wf := m.writeN_wf a v
  listed c hc := (Memory.mem_writeN hc).imp_right fun ⟨h1, h2⟩ => ⟨r, hr, by omega, by omega⟩

theorem tearRange_writtenWithin {r : AddrRange} (hr : r ∈ rs) (k : Nat) (m : Memory) :
    Memory.WrittenWithin rs m (tearRange k m r) where
  wf := tearRange_wf k m r
  listed _ hc := (mem_tearRange hc).imp_right fun h => ⟨r, hr, h⟩

theorem State.MemoryInv.of_writtenWithin {s t : State} (hs : s.MemoryInv) (h : Memory.WrittenWithin rs s.mem t.mem)
    (hrs : InsideMemory rs) : t.MemoryInv := by
  obtain ⟨hwf, hbound⟩ := hs
  refine ⟨h.wf hwf, fun c hc => ?_⟩
  rcases h.listed c hc with hc | ⟨r, hr, -, hlt⟩
  · exact hbound c hc
  · exact Nat.lt_of_lt_of_le hlt (hrs r hr)

end

/-! ### The bulk loop (R170) -/

section
variable (c : AesCtx) {f : BulkFlags} {s : State} {nb : Nat} {rs : List AddrRange}

/-- Block `k` of the output lies inside the output range. -/
theorem bulkOutBlock_le {k : Nat} (hk : k < nb) : k * f.outInc + 16 ≤ bulkOutLength f nb := by
  obtain ⟨x, y, d, i⟩ := f
  cases d
  · show k * 16 + 16 ≤ 16 * nb
    omega
  · exact Nat.le_refl 16

theorem bulkBlock_writtenWithin (hout : (s.addr2, bulkOutLength f nb) ∈ rs)
    (hcounter : f.inIsCounter = true → (s.addr0, 16) ∈ rs) (hk : s.latch.k < nb) :
    Memory.WrittenWithin rs s.mem (bulkBlock c f s).mem := by
  have hx : (if f.xor then s.mem.readN (s.addr1 + 16 * s.latch.k) 16 else zeroBlock).length = 16 := by split <;> simp
  have hblock := bulkOutBlock_le (f := f) hk
  have hwrite := Memory.writeN_writtenWithin hout s.mem (a := s.addr2 + s.latch.k * f.outInc) (Nat.le_add_right _ _)
    (by rw [bulkOutput_length c f.xorInput (s.mem.readN (s.addr0 + s.latch.k * f.inInc) 16) _ hx]; omega)
  simp only [bulkBlock, State.setK_mem, State.setMem_mem]
  split
  · rename_i hc
    exact hwrite.trans (Memory.writeN_writtenWithin (hcounter hc) _ (Nat.le_refl _) (by rw [ctrInc_length _ (by simp)]))
  · exact hwrite

theorem bulkLoop_writtenWithin (hout : (s.addr2, bulkOutLength f nb) ∈ rs)
    (hcounter : f.inIsCounter = true → (s.addr0, 16) ∈ rs) (n : Nat) (hn : n ≤ nb - s.latch.k) :
    Memory.WrittenWithin rs s.mem (bulkLoop c f n s).mem := by
  induction n generalizing s with
  | zero => exact .refl _ _
  | succ n ih =>
    have hk : (bulkBlock c f s).latch.k = s.latch.k + 1 := rfl
    exact (bulkBlock_writtenWithin c hout hcounter (by omega)).trans (ih hout hcounter (by omega))

end

/-! ### A command -/

section
variable {i : Instr} {s t : State}

/-- The destinations of a bulk command (R170): with a block, its output, and its counter block where it has one. -/
theorem mem_bulkDestinations {r : AddrRange} {n : BitVec 4} {x y d c : Bool} :
    r ∈ destinations (.aesProcessBlocks n x y d c) s ↔
      0 < s.blockCount ∧ (r = (s.addr2, bulkOutLength ⟨x, y, d, c⟩ s.blockCount) ∨ c = true ∧ r = (s.addr0, 16)) := by
  simp only [destinations]
  split
  · cases c <;> simp_all
  · simp_all

/-- A command that raises nothing writes inside its destinations only. -/
theorem EffectOf.writtenWithin (h : EffectOf i s t) : Memory.WrittenWithin (destinations i s) s.mem t.mem := by
  cases i with
  | aesProcessBlock n x =>
    obtain ⟨-, -, rfl⟩ := h
    exact Memory.writeN_writtenWithin (r := (s.addr2, 16)) (by simp [destinations]) _ (Nat.le_refl _) (by simp)
  | aesProcessBlocks n x y d c =>
    obtain ⟨-, -, rfl⟩ := h
    by_cases hn : 0 < s.blockCount
    · exact bulkLoop_writtenWithin (f := ⟨x, y, d, c⟩) (nb := s.blockCount) _ (mem_bulkDestinations.mpr ⟨hn, .inl rfl⟩)
        (fun hc => mem_bulkDestinations.mpr ⟨hn, .inr ⟨hc, rfl⟩⟩) _ (Nat.le_refl _)
    · rw [show s.blockCount - s.latch.k = 0 by omega]
      exact .refl _ _
  | aesReadRk n =>
    obtain ⟨-, -, rfl⟩ := h
    refine Memory.writeN_writtenWithin (r := (s.addr2, 4 * (s.aesCtx n).wordCount)) (by simp [destinations]) _
      (Nat.le_refl _) ?_
    rw [scheduleBytes_length]
    omega
  | bdecBuildLookup c =>
    obtain ⟨-, l, -, rfl⟩ := h
    exact Memory.writeN_writtenWithin (r := (s.addr2, 256)) (by simp [destinations]) _ (Nat.le_refl _) (by simp)
  | aesSetKey | grpInit =>
    obtain ⟨-, -, rfl⟩ := h
    exact .refl _ _
  | aesClearKey n =>
    obtain rfl : t = _ := h
    exact .refl _ _
  | bencInit | bdecInit =>
    obtain ⟨-, rfl⟩ := h
    exact .refl _ _
  | bencPut | bdecPut | grpPut =>
    obtain ⟨-, rfl⟩ := h
    rw [State.endPut_mem]
    exact .refl _ _

/-- The destinations of a command that raises nothing lie inside memory: it has checked them (R62). -/
theorem EffectOf.destinations_insideMemory (h : EffectOf i s t) : InsideMemory (destinations i s) := by
  intro r hr
  cases i with
  | aesProcessBlock n x =>
    obtain ⟨-, hfit, -⟩ := h
    obtain rfl := List.mem_singleton.mp hr
    exact hfit
  | aesProcessBlocks n x y d c =>
    obtain ⟨-, hfit, -⟩ := h
    obtain ⟨hn, hr⟩ := mem_bulkDestinations.mp hr
    obtain ⟨hin, hout⟩ := hfit hn
    rcases hr with rfl | ⟨rfl, rfl⟩
    · exact hout
    · simpa [bulkInLength, BulkFlags.inInc] using hin
  | aesReadRk n =>
    obtain ⟨-, hfit, -⟩ := h
    obtain rfl := List.mem_singleton.mp hr
    exact hfit
  | bdecBuildLookup c =>
    obtain ⟨hfit, -⟩ := h
    obtain rfl := List.mem_singleton.mp hr
    exact hfit
  | _ => cases hr

theorem exec_memoryInv (hs : s.MemoryInv) (h : exec i s = .next t) : t.MemoryInv := by
  rcases exec_raise_or_effect h with ⟨code, arg, -, -, rfl⟩ | he
  · exact hs
  · exact hs.of_writtenWithin he.writtenWithin he.destinations_insideMemory

end

/-! ### A reset (R301) -/

section
variable (s : State)

/-- A command that is going to raise an error has no unsettled bytes, and every other one has checked its
destinations. -/
theorem State.unsettled_insideMemory : InsideMemory s.unsettled := by
  intro r hr
  unfold State.unsettled at hr
  split at hr
  · cases hr
  · rename_i i _
    split at hr
    · rename_i herr
      obtain ⟨t, ht⟩ := exec_next i s
      rw [State.ranOn_of_exec ht] at herr
      rcases exec_raise_or_effect ht with ⟨code, arg, hc, -, rfl⟩ | he
      · exact absurd herr hc
      · exact he.destinations_insideMemory r hr
    · cases hr

theorem tearRanges_writtenWithin {rs qs : List AddrRange} (hqs : ∀ r ∈ qs, r ∈ rs) (k : Nat) (m : Memory) :
    Memory.WrittenWithin rs m (qs.foldl (tearRange k) m) := by
  induction qs generalizing m with
  | nil => exact .refl _ _
  | cons q qs ih =>
    exact (tearRange_writtenWithin (hqs q (by simp)) k m).trans (ih (fun r hr => hqs r (by simp [hr])) _)

theorem State.tornMemory_writtenWithin : Memory.WrittenWithin s.unsettled s.mem s.tornMemory :=
  tearRanges_writtenWithin (fun _ => id) _ _

end

/-! ### A step -/

section
variable {s t : State}

theorem State.engineTurn_memoryInv (hs : s.MemoryInv) (h : s.engineTurn = .next t) : t.MemoryInv := by
  rcases State.engineTurn_cases h with ⟨-, rfl⟩ | ⟨-, e, -, rfl⟩ | ⟨-, i, -, hi⟩
  · exact hs
  · exact hs
  · exact exec_memoryInv hs hi

@[simp] theorem State.writeRegister_mem (s : State) (offset : Nat) (w : Word) : (s.writeRegister offset w).mem = s.mem := by
  rcases State.writeRegister_cases s offset w with ⟨-, e⟩ | ⟨v, e⟩ | ⟨a, e⟩ <;> simp [e]

@[simp] theorem State.sinkAnswer_mem (s : State) (q : PortId) (k : Nat) : (s.sinkAnswer q k).mem = s.mem := by cases q <;> rfl

theorem State.MemoryInv.of_mem_eq (hs : s.MemoryInv) (h : t.mem = s.mem) : t.MemoryInv := by
  rwa [State.MemoryInv, h]

theorem State.perform_memoryInv {a : Input} (hs : s.MemoryInv) (h : s.perform a = .next t) : t.MemoryInv := by
  rcases State.perform_cases h with ⟨o, w, rfl⟩ | ⟨o, rfl⟩ | ⟨a, v, hfit, rfl⟩ | ⟨l, rfl⟩ | ⟨is, rd, h⟩ | ⟨q, k, rfl⟩ | rfl
  · exact hs.of_mem_eq (s.writeRegister_mem o w)
  · exact hs
  · rcases hfit with hnil | hfit
    · rw [List.eq_nil_of_length_eq_zero hnil]
      exact hs
    · refine hs.of_writtenWithin (rs := [(a, v.length)]) ?_ (by simpa [InsideMemory] using hfit)
      exact Memory.writeN_writtenWithin (List.mem_singleton.mpr rfl) _ (Nat.le_refl _) (Nat.le_refl _)
  · exact hs
  · exact State.engineTurn_memoryInv (s := { s with inputs := is, rdData := rd }) hs h
  · exact hs.of_mem_eq (s.sinkAnswer_mem q k)
  · refine hs.of_writtenWithin ?_ s.unsettled_insideMemory
    rw [State.applyReset_mem]
    exact s.tornMemory_writtenWithin

end

end Sys2Proof.Machine
end

section
/-! PROOF. The invariant of spec/20_memory.md. -/

namespace Sys2Proof.Proofs

open Sys2Proof.Machine

/-- Settles O54: commands and reset write inside destinations that lie inside memory, a store of the host inside the
range it was checked for, and every write keeps the canonical form. -/
theorem stepKeepsMemoryCanonical : Obligations.StepKeepsMemoryCanonical := by
  intro s t hs h
  rcases step_cases h with ⟨-, h⟩ | ⟨a, rest, -, h⟩
  · exact State.engineTurn_memoryInv hs h
  · exact State.perform_memoryInv (s := { s with inputs := rest }) hs h

end Sys2Proof.Proofs
end

section
/-! SUPPORT. The accesses of the host (spec/20_memory.md R60, R65, R68, R69): a register access is legal or refused,
and while no command runs a `STORE` writes its bytes and a `LOAD` reads memory as it stands. -/

namespace Sys2Proof.Machine

/-! ### Register accesses -/

theorem legalAccess_eq_false_iff {offset width : Nat} :
    legalAccess offset width = false ↔ width ≠ 32 ∨ offset % 4 ≠ 0 ∨ 0x3C < offset := by
  simp only [legalAccess, Bool.and_eq_false_iff, beq_eq_false_iff_ne, decide_eq_false_iff_not, not_le, or_assoc]

variable (s : State) (rest : List Input)

theorem step_writeReg_refused {offset width : Nat} (w : Word) (h : legalAccess offset width = false) :
    step { s with inputs := .writeReg offset width w :: rest } = .refused (.registerAccess offset width) := by
  rw [step_of_inputs_cons rfl]
  exact if_neg (by simp [h])

theorem step_readReg_refused {offset width : Nat} (h : legalAccess offset width = false) :
    step { s with inputs := .readReg offset width :: rest } = .refused (.registerAccess offset width) := by
  rw [step_of_inputs_cons rfl]
  exact if_neg (by simp [h])

/-! ### Memory accesses at rest -/

/-- Reading back the range just written (R61). -/
theorem Memory.readN_writeN (m : Memory) (a : Nat) (v : List Byte) (hm : m.Wf) :
    (m.writeN a v).readN a v.length = v := by
  refine List.ext_getElem (by simp) fun i _ hi => ?_
  simp [Memory.readN, Memory.read_writeN_inside m a i v hm hi, hi]

variable {s}

theorem State.namedBuffers_of_rest (hb : s.status.busy = false) : s.namedBuffers = [] := by
  simp only [State.namedBuffers, State.running_of_rest hb]

theorem State.unsettled_of_rest (hb : s.status.busy = false) : s.unsettled = [] := by
  simp only [State.unsettled, State.running_of_rest hb]

/-- A store at rest of bytes that fit happens (R69). -/
theorem step_store_of_rest (hb : s.status.busy = false) {a : Nat} {v : List Byte} (hfit : inMemory a v.length = true) :
    step { s with inputs := .store a v :: rest } = .next { s with inputs := rest, mem := s.mem.writeN a v } := by
  have hfree :
      (List.range v.length).find? (fun i => inRanges (State.namedBuffers { s with inputs := rest }) (a + i)) = none := by
    simp [State.namedBuffers_of_rest (s := { s with inputs := rest }) hb, inRanges]
  rw [step_of_inputs_cons rfl]
  simp only [State.perform, State.hostStore, hfit, hfree]
  rfl

/-- A load at rest of bytes that exist returns them (R68). -/
theorem step_load_of_rest (hb : s.status.busy = false) {a n : Nat} (hfit : inMemory a n = true) :
    step { s with inputs := .load a n :: rest } =
      .next { s with inputs := rest, ldData := s.mem.readN a n, freeCount := s.freeCount + 1 } := by
  have hsettled : State.unsettled { s with inputs := rest } = [] := State.unsettled_of_rest hb
  rw [step_of_inputs_cons rfl]
  simp [State.perform, State.hostLoad, hfit, hsettled, inRanges, Memory.readN]

end Sys2Proof.Machine
end

section
/-! SUPPORT. Which check of a command is raised (spec/20_memory.md R62, spec/60_exceptions.md R273): a range check
that fails after checks that pass. -/

namespace Sys2Proof.Machine

open Sys2Proof.Statements

/-! ### The first check that fails -/

/-- A buffer passes its range check when it fits (R62). -/
theorem rangeCheck_passes_iff_fits (a n : Nat) (g : ArgIndex) : (rangeCheck a n g).fails = false ↔ Fits a n :=
  rangeCheck_passes a n g

theorem firstFailure_append_of_pass {cs ds : List Check} (h : ∀ c ∈ cs, c.fails = false) :
    firstFailure (cs ++ ds) = firstFailure ds := by
  induction cs with
  | nil => rfl
  | cons c cs ih =>
    rw [List.cons_append, firstFailure, h c (by simp), ih fun d hd => h d (by simp [hd])]
    rfl

section
variable {s effect : State} {cs : List Check}

/-- A buffer that does not fit raises `BAD_ADDRESS` with its argument when every check before it passes. -/
theorem State.guarded_badAddress {a n : Nat} {g : ArgIndex} (before after : List Check)
    (hcs : cs = before ++ rangeCheck a n g :: after) (hbefore : ∀ c ∈ before, c.fails = false) (hfit : ¬ Fits a n) :
    s.guarded cs effect = .next (s.raise .badAddress g) := by
  have hfails : (rangeCheck a n g).fails = true := by
    rwa [← Bool.not_eq_false, rangeCheck_passes_iff_fits]
  refine State.guarded_of_failure ?_
  rw [hcs, firstFailure_append_of_pass hbefore, firstFailure, hfails]
  rfl

/-- The check of an optional buffer, made only when it is given, passes when the buffer then fits. -/
theorem optionalRangeCheck_passes {x : Bool} {a n : Nat} {g : ArgIndex} (h : x = true → Fits a n) :
    ∀ c ∈ (if x then [rangeCheck a n g] else []), c.fails = false := by
  cases x
  · simp
  · exact List.forall_mem_singleton.mpr ((rangeCheck_passes_iff_fits a n g).mpr (h rfl))

/-- The range checks that the two commands of the cipher share: input, xor block, output (R160, R170). -/
theorem State.guarded_cipherBuffers {ready : Check} {x : Bool} {a₀ n₀ a₁ n₁ a₂ n₂ : Nat} (hready : ready.fails = false)
    (hcs : cs = [ready, rangeCheck a₀ n₀ .a0] ++ (if x then [rangeCheck a₁ n₁ .a1] else []) ++ [rangeCheck a₂ n₂ .a2]) :
    (¬ Fits a₀ n₀ → s.guarded cs effect = .next (s.raise .badAddress .a0)) ∧
      (Fits a₀ n₀ → x = true → ¬ Fits a₁ n₁ → s.guarded cs effect = .next (s.raise .badAddress .a1)) ∧
      (Fits a₀ n₀ → (x = true → Fits a₁ n₁) → ¬ Fits a₂ n₂ → s.guarded cs effect = .next (s.raise .badAddress .a2)) := by
  subst hcs
  have hinput (h0 : Fits a₀ n₀) : ∀ c ∈ [ready, rangeCheck a₀ n₀ .a0], c.fails = false :=
    List.forall_mem_cons.mpr ⟨hready, List.forall_mem_singleton.mpr ((rangeCheck_passes_iff_fits _ _ _).mpr h0)⟩
  refine ⟨fun h0 => ?input, fun h0 hx h1 => ?xorBlock, fun h0 h1 h2 => ?output⟩
  case input => exact State.guarded_badAddress [ready] _ (List.append_assoc _ _ _) (List.forall_mem_singleton.mpr hready) h0
  case xorBlock =>
    subst hx
    exact State.guarded_badAddress [ready, rangeCheck a₀ n₀ .a0] _ rfl (hinput h0) h1
  case output =>
    refine State.guarded_badAddress _ [] rfl (fun c hc => ?_) h2
    exact (List.mem_append.mp hc).elim (hinput h0 c) (optionalRangeCheck_passes h1 c)

end

/-! ### The checks of a command -/

variable {s : State}

/-- The checks of a bulk command that has a block (R170). -/
theorem bulkChecks_of_blocks {n : BitVec 4} {f : BulkFlags} (h : 16 ≤ s.len3) :
    bulkChecks n f s = [⟨!(s.aesCtx n).valid, .notReady, .inst⟩, rangeCheck s.addr0 (bulkInLength f s.blockCount) .a0] ++
      (if f.xor then [rangeCheck s.addr1 (16 * s.blockCount) .a1] else []) ++
        [rangeCheck s.addr2 (bulkOutLength f s.blockCount) .a2] := by
  have hnb : 0 < s.blockCount := Nat.div_pos h (by decide)
  simp only [bulkChecks, if_pos hnb, ← List.append_assoc]
  rfl

theorem bulkInLength_eq (x y d c : Bool) (nb : Nat) :
    bulkInLength ⟨x, y, d, c⟩ nb = if d || c then 16 else 16 * nb := by
  cases h : d || c <;> simp [bulkInLength, BulkFlags.inInc, h]

theorem bulkOutLength_eq (x y d c : Bool) (nb : Nat) : bulkOutLength ⟨x, y, d, c⟩ nb = if d then 16 else 16 * nb := by
  cases d <;> rfl

/-- A put on a unit that is ready raises `BAD_ADDRESS` when its input does not fit (R196). -/
theorem State.guarded_putChecks {U : Type} {u : PutUnit U} {unit : U} {effect : State} (hv : u.valid unit = true)
    (h : ¬ Fits s.addr0 s.len3) : s.guarded (putChecks u unit s) effect = .next (s.raise .badAddress .a0) :=
  State.guarded_badAddress [⟨!u.valid unit, .notReady, .inst⟩] [] rfl (by simp [hv]) h

/-- The checks before that of the buffer pass in both INIT commands of the BaseN units, for 1 to 7 bits (R211,
R231). -/
theorem baseNInitFlagChecks_pass {b : BitVec 3} (h : 1 ≤ b.toNat) :
    ∀ c ∈ [(⟨!true, .invalidArgument, .flags⟩ : Check),
      ⟨decide (bitsPerChar b < 1 ∨ 7 < bitsPerChar b), .invalidArgument, .flags⟩], c.fails = false := by
  have hlegal : ¬ (bitsPerChar b < 1 ∨ 7 < bitsPerChar b) := by
    have := b.isLt
    unfold bitsPerChar
    omega
  exact List.forall_mem_cons.mpr ⟨rfl, List.forall_mem_singleton.mpr (decide_eq_false hlegal)⟩

/-- The checks of `GRP_INIT` before those of its ranges (R250). -/
theorem grpInitFlagChecks_pass {p q : Bool} (hsep : 0 < s.param5.toNat → p = true) (hp : p = true → s.len3 ≤ 255)
    (hq : q = true → s.len4 ≤ 255) :
    ∀ c ∈ [(⟨decide (0 < s.param5.toNat) && !p, .invalidArgument, .flags⟩ : Check),
      ⟨p && decide (Config.params.maxStr < s.len3), .invalidArgument, .a3⟩,
      ⟨q && decide (Config.params.maxStr < s.len4), .invalidArgument, .a4⟩], c.fails = false := by
  simp only [List.mem_cons, List.not_mem_nil, or_false, forall_eq_or_imp, forall_eq]
  refine ⟨?_, ?_, ?_⟩
  · cases p <;> simp_all
  · cases p <;> simp_all
  · cases q <;> simp_all

end Sys2Proof.Machine
end

section
/-! PROOF. The statements of spec/20_memory.md on accesses and buffers. -/

namespace Sys2Proof.Proofs

open Sys2Proof.Machine Sys2Proof.Statements

/-- Settles O10: such an access is not one of those R65 defines. -/
theorem otherRegisterAccessesAreRefused : Obligations.OtherRegisterAccessesAreRefused := by
  intro s w offset width rest h
  have hillegal := legalAccess_eq_false_iff.mpr h
  exact ⟨step_writeReg_refused s rest w hillegal, step_readReg_refused s rest hillegal⟩

/-- Settles O52: at rest the store happens, and the load returns what memory then holds. -/
theorem hostLoadsWhatItStored : Obligations.HostLoadsWhatItStored := by
  intro s a bytes rest hwf hb hfits
  have hfit : inMemory a bytes.length = true := decide_eq_true hfits
  exact ⟨_, _, step_store_of_rest _ hb hfit, step_load_of_rest (s := { s with mem := s.mem.writeN a bytes }) rest hb hfit,
    Memory.readN_writeN s.mem a bytes hwf, rfl, fun b hout => Memory.read_writeN_outside s.mem a b bytes (by omega)⟩

/-- Settles O17: for each range check of each command, the checks before it in the order of R273 pass. -/
theorem buffersPastTheTopAreBadAddresses : Obligations.BuffersPastTheTopAreBadAddresses := by
  intro n s
  refine ⟨fun d hl h => ?setKey, fun hv x => ?block, fun hv hl x y d c => ?bulk, fun hv h => ?readRk,
    fun b hb h p f pad => ?bencInit, fun hl ci => ?buildLookup, fun b hb h => ?bdecInit,
    fun p q hsep hp hq => ?grpInit, fun h k m => ?puts⟩
  case setKey => exact State.guarded_badAddress [⟨!legalKeyLength s.len3, .invalidKeyLength, .a3⟩] [] rfl (by simp [hl]) h
  case block => exact State.guarded_cipherBuffers (ready := ⟨!(s.aesCtx n).valid, .notReady, .inst⟩) (by simp [hv]) rfl
  case bulk =>
    have hbuffers := fun effect => State.guarded_cipherBuffers (s := s) (effect := effect) (by simp [hv])
      (bulkChecks_of_blocks (n := n) (f := ⟨x, y, d, c⟩) hl)
    simp only [bulkInLength_eq, bulkOutLength_eq] at hbuffers
    exact hbuffers _
  case readRk =>
    refine State.guarded_badAddress [⟨!(s.aesCtx n).valid, .notReady, .inst⟩] [] rfl (by simp [hv]) ?_
    rwa [AesCtx.wordCount, ← Nat.mul_assoc]
  case bencInit => exact State.guarded_badAddress _ [] rfl (baseNInitFlagChecks_pass hb) h
  case buildLookup =>
    have hlength : (⟨decide (128 < s.len3), .invalidArgument, .a3⟩ : Check).fails = false :=
      decide_eq_false (Nat.not_lt.mpr hl)
    refine ⟨fun h => ?_, fun h0 h => ?_⟩
    · exact State.guarded_badAddress _ _ rfl (List.forall_mem_singleton.mpr hlength) h
    · exact State.guarded_badAddress [_, rangeCheck s.addr0 s.len3 .a0] _ rfl (List.forall_mem_cons.mpr
        ⟨hlength, List.forall_mem_singleton.mpr ((rangeCheck_passes_iff_fits _ _ _).mpr h0)⟩) h
  case bdecInit => exact State.guarded_badAddress _ [] rfl (baseNInitFlagChecks_pass hb) h
  case grpInit =>
    have hflags := grpInitFlagChecks_pass hsep hp hq
    refine ⟨fun hpresent h => ?_, fun h0 hpresent h => ?_⟩
    · subst hpresent
      exact State.guarded_badAddress _ _ (List.append_assoc _ _ _) hflags h
    · subst hpresent
      refine State.guarded_badAddress _ [] rfl (fun c hc => ?_) h
      exact (List.mem_append.mp hc).elim (hflags c) (optionalRangeCheck_passes h0 c)
  case puts =>
    exact ⟨fun hv => State.guarded_putChecks (u := encoderUnit) hv h, fun hv => State.guarded_putChecks (u := decoderUnit) hv h,
      fun hv => State.guarded_putChecks (u := grouperUnit) hv h⟩

end Sys2Proof.Proofs
end

section
/-! SUPPORT. The fields of a command word (spec/30_encoding.md R80): a word is its five fields, and the flag
bits and `BPC` are cut from `FLAGS` (R84). -/

namespace Sys2Proof

/-! ### A word and its fields -/

/-- A word is its five fields (R80). -/
theorem word_ext_iff {w v : Word} : w = v ↔ opcField w = opcField v ∧ instField w = instField v ∧
    rsvdField w = rsvdField v ∧ flagsField w = flagsField v ∧ param8Field w = param8Field v := by
  refine ⟨fun h => by simp [h], fun h => BitVec.eq_of_toNat_eq ?_⟩
  simp only [opcField, instField, rsvdField, flagsField, param8Field, BitVec.toNat_eq, BitVec.extractLsb'_toNat,
    Nat.shiftRight_eq_div_pow] at h
  omega

theorem opcField_and (w v : Word) : opcField (w &&& v) = opcField w &&& opcField v := BitVec.extractLsb'_and
theorem instField_and (w v : Word) : instField (w &&& v) = instField w &&& instField v := BitVec.extractLsb'_and
theorem rsvdField_and (w v : Word) : rsvdField (w &&& v) = rsvdField w &&& rsvdField v := BitVec.extractLsb'_and
theorem flagsField_and (w v : Word) : flagsField (w &&& v) = flagsField w &&& flagsField v := BitVec.extractLsb'_and
theorem param8Field_and (w v : Word) : param8Field (w &&& v) = param8Field w &&& param8Field v :=
  BitVec.extractLsb'_and

/-- A word whose `RSVD` is 0 is the word of its other fields. -/
theorem encodeFields_of_fields {w : Word} (h : rsvdField w = 0) :
    encodeFields (param8Field w) (flagsField w) (instField w) (opcField w) = w := by
  obtain ⟨hopc, hinst, hrsvd, hflags, hparam8⟩ :=
    Laws.EncodedFields.fields_of_encodeFields (param8Field w) (flagsField w) (instField w) (opcField w)
  exact word_ext_iff.mpr ⟨hopc, hinst, hrsvd.trans h.symm, hflags, hparam8⟩

/-! ### The bits of `FLAGS` -/

theorem flagBit_eq (w : Word) {k : Nat} (h : k < 8) : flagBit w k = (flagsField w).getLsbD k := by
  simp [flagBit, flagsField, h]

theorem bpcField_eq (w : Word) : bpcField w = (flagsField w).extractLsb' 0 3 := by
  refine BitVec.eq_of_getLsbD_eq fun k hk => ?_
  have h8 : k < 8 := by omega
  simp [bpcField, flagsField, hk, h8]

@[simp] theorem flagsByte_getElem (f7 f6 f5 f4 f3 f2 f1 f0 : Bool) (k : Nat) (hk : k < 8) :
    (flagsByte f7 f6 f5 f4 f3 f2 f1 f0)[k] = [f0, f1, f2, f3, f4, f5, f6, f7][k] := by
  simp only [flagsByte, ← BitVec.getLsbD_eq_getElem, BitVec.getLsbD_append, BitVec.getLsbD_ofBool]
  interval_cases k <;> simp

@[simp] theorem bpc_flagsByte (f7 f6 f5 f4 f3 : Bool) (b : BitVec 3) :
    (flagsByte f7 f6 f5 f4 f3 b[2] b[1] b[0]).extractLsb' 0 3 = b := by
  refine BitVec.eq_of_getLsbD_eq fun k hk => ?_
  interval_cases k <;> simp

theorem Instr.flags_bencInit (n : BitVec 4) (b : BitVec 3) (a p f : Bool) (q : Byte) :
    (Instr.bencInit n b a p f q).flags = flagsByte false false f p a b[2] b[1] b[0] := by
  simp only [Instr.flags]
  revert b a p f
  decide

theorem Instr.flags_bdecInit (n : BitVec 4) (b : BitVec 3) (l : Bool) :
    (Instr.bdecInit n b l).flags = flagsByte false false false false l b[2] b[1] b[0] := by
  simp only [Instr.flags]
  revert b l
  decide

/-- A byte is made of its bits. -/
theorem flagsByte_bits (x : Byte) : flagsByte x[7] x[6] x[5] x[4] x[3] x[2] x[1] x[0] = x := by
  refine BitVec.eq_of_getElem_eq fun k hk => ?_
  interval_cases k <;> simp

/-- The `DIR` bit cut from a word and written back (R87). -/
@[simp] theorem beq_decrypt_of_bit (f : Bool) : ((if f = true then Direction.decrypt else .encrypt) == .decrypt) = f := by
  cases f <;> rfl

/-- The direction written as a bit and cut back (R87). -/
@[simp] theorem ite_eq_decrypt (d : Direction) : (if d = .decrypt then Direction.decrypt else .encrypt) = d := by
  cases d <;> rfl

/-! ### The command cut from a word, and its fields -/

theorem opcode_commandOf (op : Opcode) (w : Word) : (commandOf op w).opcode = op := by cases op <;> rfl

theorem inst_commandOf {op : Opcode} {w : Word} (h : op = .bdecBuildLookup → instField w = 0) :
    (commandOf op w).inst = instField w := by
  cases op with
  | bdecBuildLookup => exact (h rfl).symm
  | _ => rfl

theorem param8_commandOf {op : Opcode} {w : Word} (h : op.usesParam8 = false → param8Field w = 0) :
    (commandOf op w).param8 = param8Field w := by
  cases op with
  | bencInit | bencPut | bdecPut | grpPut => rfl
  | _ => exact (h rfl).symm

/-- The command has the flag bits of the word that its opcode defines (R87). -/
theorem flags_commandOf (op : Opcode) (w : Word) : (commandOf op w).flags = flagsField w &&& op.definedFlags := by
  rw [← flagsByte_bits (flagsField w &&& op.definedFlags)]
  cases op with
  | aesReadRk | aesClearKey =>
    rw [flagsByte_bits]
    exact BitVec.and_zero.symm
  | bencInit =>
    rw [commandOf, Instr.flags_bencInit]
    simp [Opcode.definedFlags, flagBit_eq, bpcField_eq]
  | bdecInit =>
    rw [commandOf, Instr.flags_bdecInit]
    simp [Opcode.definedFlags, flagBit_eq, bpcField_eq]
  | _ => simp [commandOf, Instr.flags, Opcode.definedFlags, flagBit_eq]

/-- A command is the one that its opcode cuts from a word with its fields (R82 to R87). -/
theorem commandOf_of_fields {i : Instr} {w : Word} (hinst : instField w = i.inst) (hflags : flagsField w = i.flags)
    (hparam8 : param8Field w = i.param8) : commandOf i.opcode w = i := by
  cases i with
  | bencInit n b a p f q =>
    rw [Instr.flags_bencInit] at hflags
    simp [commandOf, Instr.opcode, flagBit_eq, bpcField_eq, hinst, hflags, hparam8, Instr.inst, Instr.param8]
  | bdecInit n b l =>
    rw [Instr.flags_bdecInit] at hflags
    simp [commandOf, Instr.opcode, flagBit_eq, bpcField_eq, hinst, hflags, Instr.inst]
  | _ => simp [commandOf, Instr.opcode, flagBit_eq, hinst, hflags, hparam8, Instr.inst, Instr.flags, Instr.param8]

end Sys2Proof
end

section
/-! SUPPORT. The decoder of spec/30_encoding.md: what a row of the opcode table asks of a word, the conditions of
R88 in the order of R273, and the engine's turn on an illegal word. -/

namespace Sys2Proof

open Sys2Proof.Machine Sys2Proof.Statements

/-! ### The opcode table (R86) -/

/-- `Opcode.ofCode` reads R86's table backwards. -/
theorem Opcode.ofCode_code (op : Opcode) : Opcode.ofCode op.code = some op := by cases op <;> rfl

theorem Opcode.code_injective {o p : Opcode} (h : o.code = p.code) : o = p :=
  Option.some.inj (by rw [← Opcode.ofCode_code o, h, Opcode.ofCode_code])

theorem Opcode.ofCode_eq_none {c : BitVec 8} (h : ∀ op : Opcode, op.code ≠ c) : Opcode.ofCode c = none := by
  simp [Opcode.ofCode, h]

/-- Every opcode has its row. -/
theorem opcodeTable_complete (op : Opcode) : ∃ r ∈ opcodeTable, r.op = op := by
  cases op <;> simp [opcodeTable]

/-- What a row asks of a word, field by field (R82 to R87): its mask keeps the whole of `OPC` and `RSVD`, the
`FLAGS` bits that the opcode does not define, `PARAM8` where it must be 0, and `INST` where the
command names no unit; and its pattern has the opcode in `OPC` and 0 elsewhere. -/
theorem opcodeTable_fields : ∀ r ∈ opcodeTable,
    (opcField r.mask = BitVec.allOnes 8 ∧ rsvdField r.mask = BitVec.allOnes 4 ∧
      flagsField r.mask = ~~~ r.op.definedFlags ∧
      param8Field r.mask = (if r.op.usesParam8 = false then BitVec.allOnes 8 else 0) ∧
      instField r.mask = (if r.op = .bdecBuildLookup then BitVec.allOnes 4 else 0)) ∧
    r.pattern = encodeFields 0 0 0 r.op.code := by
  decide

/-- A field under a mask that keeps it on a condition. -/
theorem and_mask_eq_zero_iff {n : Nat} (p : Prop) [Decidable p] (x : BitVec n) :
    x &&& (if p then BitVec.allOnes n else 0) = 0 ↔ (p → x = 0) := by
  split_ifs with h <;> simp [h]

/-- A word that a row of the table with this opcode matches: R88's conditions 1 to 4 do not hold, and
`BDEC_BUILD_LOOKUP` has `INST = 0`. -/
structure RowMatches (op : Opcode) (w : Word) : Prop where
  opc : op.code = opcField w
  rsvd : rsvdField w = 0
  flags : ¬ UndefinedFlags op w
  param8 : ¬ StrayParam8 op w
  inst : op = .bdecBuildLookup → instField w = 0

theorem row_matches_iff {r : OpcodeRow} (hr : r ∈ opcodeTable) (w : Word) :
    w &&& r.mask = r.pattern ↔ RowMatches r.op w := by
  obtain ⟨⟨hopc, hrsvd, hflags, hparam8, hinst⟩, hpattern⟩ := opcodeTable_fields r hr
  obtain ⟨popc, pinst, prsvd, pflags, pparam8⟩ := Laws.EncodedFields.fields_of_encodeFields 0 0 0 r.op.code
  rw [hpattern, word_ext_iff, opcField_and, instField_and, rsvdField_and, flagsField_and, param8Field_and,
    hopc, hrsvd, hflags, hparam8, hinst, popc, pinst, prsvd, pflags, pparam8, BitVec.and_allOnes, BitVec.and_allOnes,
    and_mask_eq_zero_iff, and_mask_eq_zero_iff]
  exact ⟨fun ⟨ho, hi, hr, hf, hp⟩ => ⟨ho.symm, hr, not_not.mpr hf, not_and_not_right.mpr hp, hi⟩,
    fun ⟨ho, hr, hf, hp, hi⟩ => ⟨ho.symm, hi, hr, not_not.mp hf, not_and_not_right.mp hp⟩⟩

/-- The row of a word, by its opcode. -/
theorem rowOf_of_matches {op : Opcode} {w : Word} (h : RowMatches op w) : ∃ r, rowOf w = some r ∧ r.op = op := by
  obtain ⟨r, hr, rfl⟩ := opcodeTable_complete op
  have hsome : (rowOf w).isSome := List.find?_isSome.mpr ⟨r, hr, decide_eq_true ((row_matches_iff hr w).mpr h)⟩
  obtain ⟨r', hr'⟩ := Option.isSome_iff_exists.mp hsome
  have hm := (row_matches_iff (List.mem_of_find?_eq_some hr') w).mp (of_decide_eq_true (List.find?_some hr' :))
  exact ⟨r', hr', Opcode.code_injective (hm.opc.trans h.opc.symm)⟩

theorem rowOf_eq_none {w : Word} (h : ∀ op, ¬ RowMatches op w) : rowOf w = none :=
  List.find?_eq_none.mpr fun r hr hm => h r.op ((row_matches_iff hr w).mp (of_decide_eq_true hm))

/-- A command is well-formed when its `INST` is below `instanceCount`; that of `BDEC_BUILD_LOOKUP` is 0,
and so below 1 (R82). -/
theorem Instr.wellFormed_iff (i : Instr) : i.WellFormed ↔ i.inst.toNat < instanceCount i.opcode := by
  cases i with
  | bdecBuildLookup c => exact iff_of_true rfl Nat.one_pos
  | _ => exact decide_eq_true_iff

/-! ### The decoder (R90), condition by condition in the order of R273 -/

theorem commandOf_wellFormed_iff {op : Opcode} {w : Word} (h : op = .bdecBuildLookup → instField w = 0) :
    (commandOf op w).WellFormed ↔ ¬ InstOutOfRange op w := by
  rw [Instr.wellFormed_iff, opcode_commandOf, inst_commandOf h, not_le]

theorem decode_of_matches {op : Opcode} {w : Word} (h : RowMatches op w) :
    decode w = if InstOutOfRange op w then .error .instOutOfRange else .ok (commandOf op w) := by
  obtain ⟨r, hr, rfl⟩ := rowOf_of_matches h
  by_cases hi : InstOutOfRange r.op w
  · have hw : ¬ (commandOf r.op w).WellFormed := fun hw => (commandOf_wellFormed_iff h.inst).mp hw hi
    simp [decode, hr, hw, hi]
  · have hw : (commandOf r.op w).WellFormed := (commandOf_wellFormed_iff h.inst).mpr hi
    simp [decode, hr, hw, hi]

theorem decode_of_no_match {w : Word} (h : ∀ op, ¬ RowMatches op w) : decode w = .error (rejection w) := by
  simp [decode, rowOf_eq_none h]

/-- R88 condition 1. -/
theorem decode_of_unknown_opcode {w : Word} (h : ∀ op : Opcode, op.code ≠ opcField w) :
    decode w = .error .opcodeOrReserved := by
  rw [decode_of_no_match fun op hm => h op hm.opc]
  simp [rejection, Opcode.ofCode_eq_none h]

theorem rejection_of_opcode {op : Opcode} {w : Word} (h : op.code = opcField w) :
    rejection w =
      if rsvdField w ≠ 0 then .opcodeOrReserved
      else if UndefinedFlags op w then .undefinedFlag
      else if StrayParam8 op w then .param8NotZero
      else .instOutOfRange := by
  simp [rejection, ← h, Opcode.ofCode_code, UndefinedFlags, StrayParam8]

/-- A word that meets none of R88's conditions has its row. -/
theorem rowMatches_of_legal {op : Opcode} {w : Word} (hopc : op.code = opcField w) (hrsvd : rsvdField w = 0)
    (hflags : ¬ UndefinedFlags op w) (hparam8 : ¬ StrayParam8 op w) (hinst : ¬ InstOutOfRange op w) : RowMatches op w where
  opc := hopc
  rsvd := hrsvd
  flags := hflags
  param8 := hparam8
  inst hb := by
    subst hb
    exact BitVec.eq_of_toNat_eq (Nat.lt_one_iff.mp (not_le.mp hinst))

/-- R88 conditions 1 to 5, R90: the decoder on a word of a known opcode, in the order of R273. -/
theorem decode_of_opcode {op : Opcode} {w : Word} (h : op.code = opcField w) :
    decode w =
      if rsvdField w ≠ 0 then .error .opcodeOrReserved
      else if UndefinedFlags op w then .error .undefinedFlag
      else if StrayParam8 op w then .error .param8NotZero
      else if InstOutOfRange op w then .error .instOutOfRange
      else .ok (commandOf op w) := by
  by_cases hm : RowMatches op w
  · rw [decode_of_matches hm, if_neg (not_not.mpr hm.rsvd), if_neg hm.flags, if_neg hm.param8]
  · have hnone : ∀ o, ¬ RowMatches o w := fun o ho => hm (Opcode.code_injective (ho.opc.trans h.symm) ▸ ho)
    rw [decode_of_no_match hnone, rejection_of_opcode h]
    split_ifs with hr hf hp hi
    case neg => exact absurd (rowMatches_of_legal h (not_not.mp hr) hf hp hi) hm
    all_goals rfl

/-- The words that decode, and what they decode to (R90). -/
theorem decode_eq_ok_iff {w : Word} {i : Instr} :
    decode w = .ok i ↔ ∃ op, RowMatches op w ∧ ¬ InstOutOfRange op w ∧ commandOf op w = i := by
  constructor
  · intro h
    by_cases hm : ∃ op, RowMatches op w
    · obtain ⟨op, hm⟩ := hm
      rw [decode_of_matches hm] at h
      split_ifs at h with hi
      exact ⟨op, hm, hi, Except.ok.inj h⟩
    · rw [decode_of_no_match (not_exists.mp hm)] at h
      cases h
  · rintro ⟨op, hm, hi, rfl⟩
    rw [decode_of_matches hm, if_neg hi]

theorem illegalAt_of_decode {w : Word} {e : DecodeError} (h : decode w = .error e) :
    IllegalAt w (decodeErrorArg e) := by
  by_cases hknown : ∃ op : Opcode, op.code = opcField w
  · obtain ⟨op, hop⟩ := hknown
    rw [decode_of_opcode hop] at h
    split_ifs at h with hr hf hp hi <;> cases h
    · exact .inl ⟨rfl, .inr hr⟩
    · exact .inr ⟨op, hop, not_not.mp hr, .inl ⟨rfl, hf⟩⟩
    · exact .inr ⟨op, hop, not_not.mp hr, .inr (.inl ⟨rfl, hf, hp⟩)⟩
    · exact .inr ⟨op, hop, not_not.mp hr, .inr (.inr ⟨rfl, hf, hp, hi⟩)⟩
  · rw [decode_of_unknown_opcode (not_exists.mp hknown)] at h
    cases h
    exact .inl ⟨rfl, .inl (not_exists.mp hknown)⟩

/-- R88 condition 2. -/
theorem decode_of_reserved {w : Word} (h : rsvdField w ≠ 0) : decode w = .error .opcodeOrReserved := by
  by_cases hknown : ∃ op : Opcode, op.code = opcField w
  · obtain ⟨op, hop⟩ := hknown
    rw [decode_of_opcode hop, if_pos h]
  · exact decode_of_unknown_opcode (not_exists.mp hknown)

/-- The decoder's rejections are the conditions of R88, in the order of R273. -/
theorem decode_rejects_iff_illegalAt (w : Word) (arg : ArgIndex) :
    (∃ e, decode w = .error e ∧ decodeErrorArg e = arg) ↔ IllegalAt w arg := by
  constructor
  · rintro ⟨e, h, rfl⟩
    exact illegalAt_of_decode h
  · rintro (⟨rfl, hopc | hr⟩ | ⟨op, hop, hr, ⟨rfl, hf⟩ | ⟨rfl, hf, hp⟩ | ⟨rfl, hf, hp, hi⟩⟩)
    · exact ⟨_, decode_of_unknown_opcode hopc, rfl⟩
    · exact ⟨_, decode_of_reserved hr, rfl⟩
    · exact ⟨.undefinedFlag, by rw [decode_of_opcode hop, if_neg (not_not.mpr hr), if_pos hf], rfl⟩
    · exact ⟨.param8NotZero, by rw [decode_of_opcode hop, if_neg (not_not.mpr hr), if_neg hf, if_pos hp], rfl⟩
    · exact ⟨.instOutOfRange, by
        rw [decode_of_opcode hop, if_neg (not_not.mpr hr), if_neg hf, if_neg hp, if_pos hi], rfl⟩

/-! ### The engine -/

/-- The engine rejects an illegal word (R88). -/
theorem Machine.State.engineTurn_of_illegal {s : State} {arg : ArgIndex} (hb : s.status.busy = true)
    (h : IllegalAt s.latch.cmd arg) :
    s.engineTurn = .next (s.raise .illegalCommand arg) := by
  obtain ⟨e, he, rfl⟩ := (decode_rejects_iff_illegalAt _ _).mpr h
  simp [State.engineTurn, hb, he]

end Sys2Proof
end

section
/-! SUPPORT. The encoder of spec/30_encoding.md: the word of a well-formed command is legal, and the command of a
legal word is encoded as that word. -/

namespace Sys2Proof

open Sys2Proof.Machine Sys2Proof.Statements

/-- Every command's word has the command's fields (R80). -/
theorem encode_fields (i : Instr) : Laws.EncodedFields.Statement i := by
  cases i with
  | aesSetKey n d => exact Laws.EncodedFields.aesSetKey n d
  | aesProcessBlock n x => exact Laws.EncodedFields.aesProcessBlock n x
  | aesProcessBlocks n x y d c => exact Laws.EncodedFields.aesProcessBlocks n x y d c
  | aesReadRk n => exact Laws.EncodedFields.aesReadRk n
  | aesClearKey n => exact Laws.EncodedFields.aesClearKey n
  | bencInit n b a p f q => exact Laws.EncodedFields.bencInit n b a p f q
  | bencPut n k m => exact Laws.EncodedFields.bencPut n k m
  | bdecBuildLookup c => exact Laws.EncodedFields.bdecBuildLookup c
  | bdecInit n b l => exact Laws.EncodedFields.bdecInit n b l
  | bdecPut n k m => exact Laws.EncodedFields.bdecPut n k m
  | grpInit n p t => exact Laws.EncodedFields.grpInit n p t
  | grpPut n k m => exact Laws.EncodedFields.grpPut n k m

/-- The word of a well-formed command meets none of R88's conditions. -/
theorem encode_legal {i : Instr} (h : i.WellFormed) :
    RowMatches i.opcode (encode i) ∧ ¬ InstOutOfRange i.opcode (encode i) := by
  obtain ⟨hopc, hinst, hrsvd, hflags, hparam8, hdefined, hstray⟩ := encode_fields i
  have hrange : ¬ InstOutOfRange i.opcode (encode i) := by
    rw [InstOutOfRange, hinst, not_le]
    exact i.wellFormed_iff.mp h
  refine ⟨rowMatches_of_legal hopc.symm hrsvd ?_ ?_ hrange, hrange⟩
  · rw [UndefinedFlags, hflags]
    exact not_not.mpr hdefined
  · rw [StrayParam8, hparam8]
    exact not_and_not_right.mpr hstray

/-- A byte with no bit outside a mask is its own part under the mask. -/
theorem and_eq_left_of_and_not_eq_zero {x m : Byte} (h : x &&& ~~~ m = 0) : x &&& m = x := by
  calc x &&& m = (x &&& m) ||| (x &&& ~~~ m) := by simp [h]
    _ = x := by rw [← BitVec.and_or_distrib_left, BitVec.or_not_self, BitVec.and_allOnes]

/-- The command of a matched word is encoded as that word (R80). -/
theorem encode_commandOf {op : Opcode} {w : Word} (h : RowMatches op w) : encode (commandOf op w) = w := by
  rw [encode, opcode_commandOf, inst_commandOf h.inst, param8_commandOf (not_and_not_right.mp h.param8), flags_commandOf,
    and_eq_left_of_and_not_eq_zero (not_not.mp h.flags), h.opc, encodeFields_of_fields h.rsvd]

end Sys2Proof
end

section
/-! PROOF. The statements of spec/30_encoding.md. -/

namespace Sys2Proof.Proofs

open Sys2Proof.Machine Sys2Proof.Statements

/-- Settles O1: the word of a well-formed command has its row, and the row's command is cut from the fields
that were written. -/
theorem decodeUndoesEncode : Obligations.DecodeUndoesEncode := by
  intro i hw
  obtain ⟨hm, hrange⟩ := encode_legal hw
  obtain ⟨-, hinst, -, hflags, hparam8, -, -⟩ := encode_fields i
  exact decode_eq_ok_iff.mpr ⟨i.opcode, hm, hrange, commandOf_of_fields hinst hflags hparam8⟩

/-- Settles O2: a row's mask leaves no bit of the word out of its command. -/
theorem encodeUndoesDecode : Obligations.EncodeUndoesDecode := by
  intro w i h
  obtain ⟨op, hm, hrange, rfl⟩ := decode_eq_ok_iff.mp h
  exact ⟨decode_wellFormed h, encode_commandOf hm, hm.rsvd⟩

/-- Settles O3: the decoder's order of checks is R273's, and each form of the engine's turn raises the error
on the state the statement names. -/
theorem illegalWordsAreRejected : Obligations.IllegalWordsAreRejected := by
  refine ⟨decode_rejects_iff_illegalAt, fun s arg hb hill => ⟨fun h => ?noAct, fun rest h => ?engine, fun rest h => ?wait⟩⟩
  case noAct => exact (step_of_inputs_nil h).trans (State.engineTurn_of_illegal hb hill)
  case engine => exact (step_of_inputs_engine h).trans (State.engineTurn_of_illegal hb hill)
  case wait => exact (step_of_inputs_wait h hb).trans (State.engineTurn_of_illegal hb hill)

/-- Settles O4, by running the decoder on the five words. -/
theorem specWordsDecode : Obligations.SpecWordsDecode := by
  unfold Obligations.SpecWordsDecode
  decide

end Sys2Proof.Proofs
end

section
/-! SUPPORT. The arithmetic of GF(2^8) and the S-boxes of spec/40_aes_primitives.md (R110 to R114): `xtime` and the
product are additive, so the fixed multiples are products because `{01}` is the unit. -/

namespace Sys2Proof.Machine

/-! ### Products (R110 to R112) -/

/-- A byte times one bit: what a step of `xtime` and of the product adds. -/
def bitTimes (c : Bool) (a : Byte) : Byte := if c then a else 0

theorem bitTimes_xor_left (c d : Bool) (a : Byte) : bitTimes (c ^^ d) a = bitTimes c a ^^^ bitTimes d a := by
  cases c <;> cases d <;> simp [bitTimes]

theorem bitTimes_xor_right (c : Bool) (a b : Byte) : bitTimes c (a ^^^ b) = bitTimes c a ^^^ bitTimes c b := by
  cases c <;> simp [bitTimes]

theorem xtime_eq_bitTimes (x : Byte) : xtime x = (x <<< 1) ^^^ bitTimes (x.getLsbD 7) 0x1B#8 := rfl

theorem gmulLoop_succ (n : Nat) (a b r : Byte) :
    gmulLoop (n + 1) a b r = gmulLoop n (xtime a) (b >>> 1) (r ^^^ bitTimes (b.getLsbD 0) a) := by
  rw [gmulLoop]
  cases b.getLsbD 0 <;> simp [bitTimes]

theorem xtime_xor (x y : Byte) : xtime (x ^^^ y) = xtime x ^^^ xtime y := by
  simp only [xtime_eq_bitTimes, BitVec.shiftLeft_xor_distrib, BitVec.getLsbD_xor, bitTimes_xor_left]
  ac_rfl

theorem xtime_zero : xtime 0 = 0 := by decide

theorem xtime_bitTimes (c : Bool) (a : Byte) : xtime (bitTimes c a) = bitTimes c (xtime a) := by
  cases c
  · exact xtime_zero
  · rfl

theorem gmulLoop_xor_left (n : Nat) (a a' b r r' : Byte) :
    gmulLoop n (a ^^^ a') b (r ^^^ r') = gmulLoop n a b r ^^^ gmulLoop n a' b r' := by
  induction n generalizing a a' b r r' with
  | zero => rfl
  | succ n ih =>
    simp only [gmulLoop_succ, xtime_xor, bitTimes_xor_right, ← ih]
    congr 1
    ac_rfl

theorem gmulLoop_xtime (n : Nat) (a b r : Byte) : gmulLoop n (xtime a) b (xtime r) = xtime (gmulLoop n a b r) := by
  induction n generalizing a b r with
  | zero => rfl
  | succ n ih => simp only [gmulLoop_succ, ← ih, xtime_xor, xtime_bitTimes]

theorem gmul_xor_left (a b x : Byte) : gmul (a ^^^ b) x = gmul a x ^^^ gmul b x := gmulLoop_xor_left 8 a b x 0 0

theorem gmul_xtime (a x : Byte) : gmul (xtime a) x = xtime (gmul a x) := gmulLoop_xtime 8 a x 0

@[simp] theorem gmul_one : ∀ x : Byte, gmul 0x01#8 x = x := by decide

@[simp] theorem gmul_zero (x : Byte) : gmul 0x00#8 x = 0 := by
  rw [show 0x00#8 = 0x01#8 ^^^ 0x01#8 from rfl, gmul_xor_left, BitVec.xor_self]
  rfl

/-- Every byte is made of `{01}` by `xtime` and exclusive-or, which is how `gmul {01}` computes it. -/
theorem byte_induction {P : Byte → Prop} (one : P 0x01#8) (double : ∀ a, P a → P (xtime a))
    (add : ∀ a b, P a → P b → P (a ^^^ b)) (x : Byte) : P x := by
  have zero : P 0 := add _ _ one one
  have select (c : Bool) {a : Byte} (ha : P a) : P (bitTimes c a) := by cases c <;> assumption
  have loop (n : Nat) : ∀ a b r, P a → P r → P (gmulLoop n a b r) := by
    induction n with
    | zero => exact fun _ _ _ _ hr => hr
    | succ n ih =>
      intro a b r ha hr
      rw [gmulLoop_succ]
      exact ih _ _ _ (double a ha) (add _ _ hr (select _ ha))
  exact gmul_one x ▸ loop 8 0x01#8 x 0 one zero

theorem gmul_xor_right (k x y : Byte) : gmul k (x ^^^ y) = gmul k x ^^^ gmul k y := by
  induction k using byte_induction with
  | one => simp only [gmul_one]
  | double a ih => simp only [gmul_xtime, ih, xtime_xor]
  | add a b iha ihb =>
    simp only [gmul_xor_left, iha, ihb]
    ac_rfl

theorem gmul_assoc (k m x : Byte) : gmul (gmul k m) x = gmul k (gmul m x) := by
  induction k using byte_induction with
  | one => simp only [gmul_one]
  | double a ih => simp only [gmul_xtime, ih]
  | add a b iha ihb => simp only [gmul_xor_left, iha, ihb]

theorem f2_eq_gmul (x : Byte) : f2 x = gmul 0x02#8 x := by
  rw [show 0x02#8 = xtime 0x01#8 from rfl, gmul_xtime, gmul_one, f2]

theorem f4_eq_gmul (x : Byte) : f4 x = gmul 0x04#8 x := by
  rw [show 0x04#8 = xtime 0x02#8 from rfl, gmul_xtime, ← f2_eq_gmul, f4]

theorem f8_eq_gmul (x : Byte) : f8 x = gmul 0x08#8 x := by
  rw [show 0x08#8 = xtime 0x04#8 from rfl, gmul_xtime, ← f4_eq_gmul, f8]

theorem f3_eq_gmul (x : Byte) : f3 x = gmul 0x03#8 x := by
  rw [show 0x03#8 = 0x02#8 ^^^ 0x01#8 from rfl, gmul_xor_left, gmul_one, ← f2_eq_gmul, f3]

theorem f9_eq_gmul (x : Byte) : f9 x = gmul 0x09#8 x := by
  rw [show 0x09#8 = 0x08#8 ^^^ 0x01#8 from rfl, gmul_xor_left, gmul_one, ← f8_eq_gmul, f9]

theorem fb_eq_gmul (x : Byte) : fb x = gmul 0x0b#8 x := by
  rw [show 0x0b#8 = 0x08#8 ^^^ 0x02#8 ^^^ 0x01#8 from rfl, gmul_xor_left, gmul_xor_left, gmul_one, ← f8_eq_gmul,
    ← f2_eq_gmul, fb]

theorem fd_eq_gmul (x : Byte) : fd x = gmul 0x0d#8 x := by
  rw [show 0x0d#8 = 0x08#8 ^^^ 0x04#8 ^^^ 0x01#8 from rfl, gmul_xor_left, gmul_xor_left, gmul_one, ← f8_eq_gmul,
    ← f4_eq_gmul, fd]

theorem fe_eq_gmul (x : Byte) : fe x = gmul 0x0e#8 x := by
  rw [show 0x0e#8 = 0x08#8 ^^^ 0x04#8 ^^^ 0x02#8 from rfl, gmul_xor_left, gmul_xor_left, ← f8_eq_gmul, ← f4_eq_gmul,
    ← f2_eq_gmul, fe]

/-! ### S-boxes (R113, R114) -/

theorem sd_se : ∀ x : Byte, sd (se x) = x := by decide +kernel

/-- The affine map of R113. -/
def affine (y : Byte) : Byte :=
  y ^^^ y.rotateLeft 1 ^^^ y.rotateLeft 2 ^^^ y.rotateLeft 3 ^^^ y.rotateLeft 4 ^^^ 0x63#8

/-- The inverse of the affine map: what `Se` was applied to once the S-box entry is `z`. -/
def affineInv (z : Byte) : Byte := z.rotateLeft 1 ^^^ z.rotateLeft 3 ^^^ z.rotateLeft 6 ^^^ 0x05#8

theorem affine_affineInv : ∀ z : Byte, affine (affineInv z) = z := by decide +kernel

/-- Under its affine map the S-box is the inverse of the field, 0 going to 0 (R113). -/
theorem affineInv_se_inverse : ∀ x : Byte, x = 0 ∧ affineInv (se x) = 0 ∨ gmul x (affineInv (se x)) = 1 := by
  decide +kernel

end Sys2Proof.Machine
end

section
/-! SUPPORT. Words as four bytes (spec/00_scope.md R10, R117), and the matrix product that a round's table lookups
make of a column (spec/40_aes_primitives.md R115, R116, R121, R123). -/

namespace Sys2Proof.Machine

/-! ### Bytes of a word (R10, R117) -/

@[simp] theorem byteOf_be32 (a b c d : Byte) :
    byteOf (be32 a b c d) 3 = a ∧ byteOf (be32 a b c d) 2 = b ∧ byteOf (be32 a b c d) 1 = c ∧
      byteOf (be32 a b c d) 0 = d := by
  refine ⟨?_, ?_, ?_, ?_⟩ <;>
  · refine BitVec.eq_of_getLsbD_eq fun i hi => ?_
    simp only [byteOf, be32, BitVec.getLsbD_extractLsb', BitVec.getLsbD_append]
    interval_cases i <;> simp

@[simp] theorem be32_byteOf (w : Word) : be32 (byteOf w 3) (byteOf w 2) (byteOf w 1) (byteOf w 0) = w := by
  refine BitVec.eq_of_getLsbD_eq fun i hi => ?_
  simp only [byteOf, be32, BitVec.getLsbD_extractLsb', BitVec.getLsbD_append]
  interval_cases i <;> simp

/-- A word is `be32` of the bytes it has. -/
theorem eq_be32 {w : Word} {a b c d : Byte} (ha : byteOf w 3 = a) (hb : byteOf w 2 = b) (hc : byteOf w 1 = c)
    (hd : byteOf w 0 = d) : w = be32 a b c d := by
  rw [← ha, ← hb, ← hc, ← hd, be32_byteOf]

@[simp] theorem byteOf_xor (v w : Word) (k : Nat) : byteOf (v ^^^ w) k = byteOf v k ^^^ byteOf w k :=
  BitVec.extractLsb'_xor

theorem be32_xor (a b c d a' b' c' d' : Byte) :
    be32 a b c d ^^^ be32 a' b' c' d' = be32 (a ^^^ a') (b ^^^ b') (c ^^^ c') (d ^^^ d') :=
  eq_be32 (by simp) (by simp) (by simp) (by simp)

/-- Rotating right by whole bytes moves the bytes down. -/
theorem byteOf_rotateRight (w : Word) {j k : Nat} (hj : j < 4) (hk : k < 4) :
    byteOf (w.rotateRight (8 * j)) k = byteOf w ((k + j) % 4) := by
  refine BitVec.eq_of_getLsbD_eq fun i hi => ?_
  simp only [byteOf, BitVec.getLsbD_extractLsb', BitVec.getLsbD_rotateRight, Nat.mod_eq_of_lt (show 8 * j < 32 by omega),
    show 8 * k + i < 32 by omega, decide_true, Bool.true_and]
  by_cases hwrap : 8 * k + i < 32 - 8 * j
  · simp only [hwrap, decide_true, cond_true]
    rw [show 8 * j + (8 * k + i) = 8 * ((k + j) % 4) + i by omega]
  · simp only [hwrap, decide_false, cond_false]
    rw [show 8 * k + i - (32 - 8 * j) = 8 * ((k + j) % 4) + i by omega]

theorem be32_rotateRight (a b c d : Byte) :
    (be32 a b c d).rotateRight (8 * 0) = be32 a b c d ∧ (be32 a b c d).rotateRight (8 * 1) = be32 d a b c ∧
      (be32 a b c d).rotateRight (8 * 2) = be32 c d a b ∧ (be32 a b c d).rotateRight (8 * 3) = be32 b c d a := by
  refine ⟨?_, ?_, ?_, ?_⟩ <;>
  apply eq_be32 <;>
  · rw [byteOf_rotateRight _ (by decide) (by decide)]
    simp

/-! ### Columns times a matrix -/

/-- A column times the matrix whose rows are the rotations of `k0, k1, k2, k3` (R129, FIPS-197's MixColumns). -/
def mixColumn (k0 k1 k2 k3 : Byte) (w : Word) : Word :=
  be32 (gmul k0 (byteOf w 3) ^^^ gmul k1 (byteOf w 2) ^^^ gmul k2 (byteOf w 1) ^^^ gmul k3 (byteOf w 0))
    (gmul k3 (byteOf w 3) ^^^ gmul k0 (byteOf w 2) ^^^ gmul k1 (byteOf w 1) ^^^ gmul k2 (byteOf w 0))
    (gmul k2 (byteOf w 3) ^^^ gmul k3 (byteOf w 2) ^^^ gmul k0 (byteOf w 1) ^^^ gmul k1 (byteOf w 0))
    (gmul k1 (byteOf w 3) ^^^ gmul k2 (byteOf w 2) ^^^ gmul k3 (byteOf w 1) ^^^ gmul k0 (byteOf w 0))

theorem mixColumn_xor (k0 k1 k2 k3 : Byte) (v w : Word) :
    mixColumn k0 k1 k2 k3 (v ^^^ w) = mixColumn k0 k1 k2 k3 v ^^^ mixColumn k0 k1 k2 k3 w := by
  simp only [mixColumn, be32_xor, byteOf_xor, gmul_xor_right]
  congr 1 <;> ac_rfl

/-- The product of two such matrices is another one. -/
theorem mixColumn_mixColumn (k0 k1 k2 k3 m0 m1 m2 m3 : Byte) (w : Word) :
    mixColumn k0 k1 k2 k3 (mixColumn m0 m1 m2 m3 w) =
      mixColumn (gmul k0 m0 ^^^ gmul k1 m3 ^^^ gmul k2 m2 ^^^ gmul k3 m1)
        (gmul k0 m1 ^^^ gmul k1 m0 ^^^ gmul k2 m3 ^^^ gmul k3 m2)
        (gmul k0 m2 ^^^ gmul k1 m1 ^^^ gmul k2 m0 ^^^ gmul k3 m3)
        (gmul k0 m3 ^^^ gmul k1 m2 ^^^ gmul k2 m1 ^^^ gmul k3 m0) w := by
  simp only [mixColumn, byteOf_be32, gmul_xor_left, gmul_xor_right, gmul_assoc]
  congr 1 <;> ac_rfl

/-- The rows of the two matrices of FIPS-197 times each other give the unit matrix. -/
theorem mixCoefficients_product :
    gmul 0x0e#8 0x02#8 ^^^ gmul 0x0b#8 0x01#8 ^^^ gmul 0x0d#8 0x01#8 ^^^ gmul 0x09#8 0x03#8 = 0x01#8 ∧
      gmul 0x0e#8 0x03#8 ^^^ gmul 0x0b#8 0x02#8 ^^^ gmul 0x0d#8 0x01#8 ^^^ gmul 0x09#8 0x01#8 = 0x00#8 ∧
      gmul 0x0e#8 0x01#8 ^^^ gmul 0x0b#8 0x03#8 ^^^ gmul 0x0d#8 0x02#8 ^^^ gmul 0x09#8 0x01#8 = 0x00#8 ∧
      gmul 0x0e#8 0x01#8 ^^^ gmul 0x0b#8 0x01#8 ^^^ gmul 0x0d#8 0x03#8 ^^^ gmul 0x09#8 0x02#8 = 0x00#8 := by
  decide

/-- The matrix of decryption is the inverse of that of encryption. -/
theorem invMix_mix (w : Word) :
    mixColumn 0x0e#8 0x0b#8 0x0d#8 0x09#8 (mixColumn 0x02#8 0x03#8 0x01#8 0x01#8 w) = w := by
  obtain ⟨h0, h1, h2, h3⟩ := mixCoefficients_product
  rw [mixColumn_mixColumn, h0, h1, h2, h3]
  simp [mixColumn]

/-- A table whose quarters are the rotations of a column of the matrix times an S-box byte multiplies the
S-box's column by the matrix. -/
theorem tableColumn_eq_mixColumn {t : Nat → Byte → Word} {box : Byte → Byte} {k0 k1 k2 k3 : Byte}
    (ht : ∀ j i, t j i =
      (be32 (gmul k0 (box i)) (gmul k3 (box i)) (gmul k2 (box i)) (gmul k1 (box i))).rotateRight (8 * j))
    (a b c d : Word) : tableColumn t a b c d = mixColumn k0 k1 k2 k3 (boxColumn box a b c d) := by
  simp only [tableColumn, ht, be32_rotateRight, be32_xor, mixColumn, boxColumn, byteOf_be32]

theorem tableColumn_te (a b c d : Word) :
    tableColumn te a b c d = mixColumn 0x02#8 0x03#8 0x01#8 0x01#8 (boxColumn se a b c d) :=
  tableColumn_eq_mixColumn (fun j i => by rw [te, we, f2_eq_gmul, f3_eq_gmul, gmul_one]) a b c d

theorem tableColumn_td (a b c d : Word) :
    tableColumn td a b c d = mixColumn 0x0e#8 0x0b#8 0x0d#8 0x09#8 (boxColumn sd a b c d) :=
  tableColumn_eq_mixColumn (fun j i => by rw [td, wd, fe_eq_gmul, f9_eq_gmul, fd_eq_gmul, fb_eq_gmul]) a b c d

/-- The key schedule's way through both S-boxes is the matrix of decryption alone (R142). -/
theorem invMixColumn_eq_mixColumn (w : Word) : invMixColumn w = mixColumn 0x0e#8 0x0b#8 0x0d#8 0x09#8 w := by
  have hcolumn : boxColumn sd (subWord w) (subWord w) (subWord w) (subWord w) = w := by simp [boxColumn, subWord, sd_se]
  calc invMixColumn w = tableColumn td (subWord w) (subWord w) (subWord w) (subWord w) := by
        simp [invMixColumn, tableColumn, subWord]
    _ = mixColumn 0x0e#8 0x0b#8 0x0d#8 0x09#8 w := by rw [tableColumn_td, hcolumn]

end Sys2Proof.Machine
end

section
/-! SUPPORT. The table rounds on columns are the rounds of FIPS-197 on bytes (spec/40_aes_primitives.md R120 to R126). -/

namespace Sys2Proof.Machine

open Sys2Proof.Statements

/-! ### States as columns (R120) -/

/-- A word function on each column: MixColumns of a whole state. -/
def Columns.map (f : Word → Word) (s : Columns) : Columns := ⟨f s.c0, f s.c1, f s.c2, f s.c3⟩

/-- Two states xored: AddRoundKey, the round key being four columns too. -/
def Columns.xor (s k : Columns) : Columns := ⟨s.c0 ^^^ k.c0, s.c1 ^^^ k.c1, s.c2 ^^^ k.c2, s.c3 ^^^ k.c3⟩

/-- Round key `r` of a schedule. -/
def roundKey (rk : List Word) (r : Nat) : Columns :=
  ⟨rk.getD (4 * r) 0, rk.getD (4 * r + 1) 0, rk.getD (4 * r + 2) 0, rk.getD (4 * r + 3) 0⟩

theorem addRoundKey_eq_xor (rk : List Word) (r : Nat) (s : Columns) : addRoundKey rk r s = s.xor (roundKey rk r) := rfl

@[simp] theorem Columns.xor_xor_cancel (s k : Columns) : (s.xor k).xor k = s := by
  simp [Columns.xor, xor_cancel_right]

theorem Columns.map_xor {f : Word → Word} (hf : ∀ v w, f (v ^^^ w) = f v ^^^ f w) (s k : Columns) :
    (s.xor k).map f = (s.map f).xor (k.map f) := by
  simp [Columns.xor, Columns.map, hf]

theorem Columns.map_map_cancel {f g : Word → Word} (h : ∀ w, g (f w) = w) (s : Columns) : (s.map f).map g = s := by
  simp [Columns.map, h]

/-- The bytes of a block, column by column (R120). -/
theorem storeColumns_loadColumns {p : List Byte} (hp : p.length = 16) : storeColumns (loadColumns p) = p := by
  refine List.ext_getElem (by simp [hp]) fun i _ hi => ?_
  simp only [storeColumns, loadColumns, bytes32, wordAt, byteOf_be32, List.getD_eq_getElem?_getD]
  rw [hp] at hi
  interval_cases i <;> simp [hp]

@[simp] theorem loadColumns_storeColumns (s : Columns) : loadColumns (storeColumns s) = s := by
  simp [storeColumns, loadColumns, bytes32, wordAt]

/-! ### Rounds (R121 to R124): S-box, shift and matrix, then the round key -/

theorem encRound_eq (rk : List Word) (r : Nat) (s : Columns) :
    encRound rk r s =
      addRoundKey rk r ((shiftRows (boxColumn se) s).map (mixColumn 0x02#8 0x03#8 0x01#8 0x01#8)) := by
  simp only [encRound, shiftRows, tableColumn_te, Columns.map]

theorem decRound_eq (rk : List Word) (r : Nat) (s : Columns) :
    decRound rk r s =
      addRoundKey rk r ((invShiftRows (boxColumn sd) s).map (mixColumn 0x0e#8 0x0b#8 0x0d#8 0x09#8)) := by
  simp only [decRound, invShiftRows, tableColumn_td, Columns.map]

/-- The last of `n + 1` rounds, taken off. -/
theorem roundsFrom_succ (round : Nat → Columns → Columns) (n r : Nat) (s : Columns) :
    roundsFrom round (n + 1) r s = round (r + n) (roundsFrom round n r s) := by
  induction n generalizing r s with
  | zero => rfl
  | succ n ih =>
    rw [roundsFrom, ih]
    congr 1
    omega

/-! ### The operations of FIPS-197 on the bytes of columns -/

theorem addKeyBytes_storeColumns (rk : List Word) (r : Nat) (s : Columns) :
    addKeyBytes rk r (storeColumns s) = storeColumns (addRoundKey rk r s) := by
  simp only [storeColumns, addRoundKey, bytes32, byteOf_xor]
  rfl

theorem mixColumns_storeColumns (k0 k1 k2 k3 : Byte) (s : Columns) :
    mixColumns [k0, k1, k2, k3] (storeColumns s) = storeColumns (s.map (mixColumn k0 k1 k2 k3)) := by
  simp [storeColumns, Columns.map, mixColumn, bytes32, mixColumns, List.range_succ]

theorem shiftRowsLeft_box (box : Byte → Byte) (s : Columns) :
    shiftRowsLeft 1 ((storeColumns s).map box) = storeColumns (shiftRows (boxColumn box) s) := by
  simp only [storeColumns, shiftRows, boxColumn, bytes32, byteOf_be32]
  rfl

theorem shiftRowsLeft_box_inverse (box : Byte → Byte) (s : Columns) :
    shiftRowsLeft 3 ((storeColumns s).map box) = storeColumns (invShiftRows (boxColumn box) s) := by
  simp only [storeColumns, invShiftRows, boxColumn, bytes32, byteOf_be32]
  rfl

section

variable {box : Byte → Byte} {k : Nat} {k0 k1 k2 k3 : Byte} {sub : Columns → Columns} {rk : List Word}
  {round : Nat → Columns → Columns} (hsub : ∀ s, shiftRowsLeft k ((storeColumns s).map box) = storeColumns (sub s))
  (hround : ∀ r s, round r s = addRoundKey rk r ((sub s).map (mixColumn k0 k1 k2 k3)))

include hsub hround

/-- The rounds before the last, on the bytes of columns. -/
theorem fipsRounds_storeColumns (n : Nat) (s : Columns) :
    (List.range n).foldl
        (fun v r => addKeyBytes rk (r + 1) (mixColumns [k0, k1, k2, k3] (shiftRowsLeft k (v.map box)))) (storeColumns s) =
      storeColumns (roundsFrom round n 1 s) := by
  induction n with
  | zero => rfl
  | succ n ih =>
    rw [List.range_succ, List.foldl_append, ih, List.foldl_cons, List.foldl_nil, hsub, mixColumns_storeColumns,
      addKeyBytes_storeColumns, roundsFrom_succ, hround, Nat.add_comm n 1]

/-- Rounds whose byte steps are known are FIPS-197's cipher. -/
theorem fipsCipher_eq (nr : Nat) {p : List Byte} (hp : p.length = 16) :
    fipsCipher box k [k0, k1, k2, k3] rk nr p =
      storeColumns (addRoundKey rk nr (sub (roundsFrom round (nr - 1) 1 (addRoundKey rk 0 (loadColumns p))))) := by
  conv_lhs => rw [← storeColumns_loadColumns hp]
  rw [fipsCipher, addKeyBytes_storeColumns, fipsRounds_storeColumns hsub hround, hsub, addKeyBytes_storeColumns]

end

theorem encBlock_eq_fipsCipher (rk : List Word) (nr : Nat) {p : List Byte} (hp : p.length = 16) :
    encBlock rk nr p = fipsCipher se 1 [0x02#8, 0x03#8, 0x01#8, 0x01#8] rk nr p :=
  (fipsCipher_eq (shiftRowsLeft_box se) (encRound_eq rk) nr hp).symm

theorem decBlock_eq_fipsCipher (rk : List Word) (nr : Nat) {p : List Byte} (hp : p.length = 16) :
    decBlock rk nr p = fipsCipher sd 3 [0x0e#8, 0x0b#8, 0x0d#8, 0x09#8] rk nr p :=
  (fipsCipher_eq (shiftRowsLeft_box_inverse sd) (decRound_eq rk) nr hp).symm

end Sys2Proof.Machine
end

section
/-! SUPPORT. The decryption schedule undoes the encryption schedule round by round (spec/41_aes_key_schedule.md R140 to
R142, spec/40_aes_primitives.md R129). -/

namespace Sys2Proof.Machine

/-! ### Schedules (R140 to R142) -/

@[simp] theorem expandKey_length (nk n : Nat) (w : List Word) : (expandKey nk n w).length = w.length + n := by
  induction n generalizing w with
  | zero => rfl
  | succ n ih =>
    rw [expandKey, ih, List.length_append, List.length_singleton]
    omega

@[simp] theorem keyExpand_length (key : List Byte) : (keyExpand key).length = 4 * (roundCount key + 1) := by
  simp only [keyExpand, expandKey_length, keyWords, List.length_map, List.length_range, roundCount]
  omega

@[simp] theorem invSchedule_length (w : List Word) (nr : Nat) : (invSchedule w nr).length = 4 * (nr + 1) := by
  simp [invSchedule]

@[simp] theorem keySchedule_length (dir : Direction) (key : List Byte) :
    (keySchedule dir key).length = 4 * (roundCount key + 1) := by
  cases dir with
  | encrypt => exact keyExpand_length key
  | decrypt => exact invSchedule_length _ _

/-- A legal key has at most 14 rounds, which the four bits of `nr` and the 60 words of `rk` hold. -/
theorem roundCount_le {key : List Byte} (h : legalKeyLength key.length = true) : roundCount key ≤ 14 := by
  simp only [legalKeyLength, Bool.or_eq_true, beq_iff_eq] at h
  unfold roundCount
  omega

theorem roundCount_pos (key : List Byte) : 0 < roundCount key := by
  unfold roundCount
  omega

/-- A context holds the round count and the round keys of its key's schedule. -/
theorem keyedContext_nr (dir : Direction) {key : List Byte} (h : legalKeyLength key.length = true) :
    (keyedContext dir key).nr.toNat = roundCount key :=
  Nat.mod_eq_of_lt (Nat.lt_of_le_of_lt (roundCount_le h) (by decide))

theorem roundKey_keyedContext (dir : Direction) {key : List Byte} (h : legalKeyLength key.length = true) (r : Nat) :
    roundKey (keyedContext dir key).rk.toList r = roundKey (keySchedule dir key) r := by
  have hlen : (keySchedule dir key).length ≤ 60 := by
    have := roundCount_le h
    rw [keySchedule_length]
    omega
  have hword (k : Nat) : (keyedContext dir key).rk.toList.getD k 0 = (keySchedule dir key).getD k 0 :=
    entry_fillBuffer _ 0 k hlen
  simp only [roundKey, hword]

/-- The round keys of `v` are those of `w` in reverse order, the interior ones multiplied by the matrix of
decryption (R142). -/
structure InverseKeys (w v : List Word) (nr : Nat) : Prop where
  first : roundKey v 0 = roundKey w nr
  interior : ∀ r, 0 < r → r < nr → roundKey v r = (roundKey w (nr - r)).map (mixColumn 0x0e#8 0x0b#8 0x0d#8 0x09#8)
  last : roundKey v nr = roundKey w 0

theorem invSchedule_getD (w : List Word) {nr r c : Nat} (hr : r ≤ nr) (hc : c < 4) :
    (invSchedule w nr).getD (4 * r + c) 0 =
      if 0 < r ∧ r < nr then invMixColumn (w.getD (4 * (nr - r) + c) 0) else w.getD (4 * (nr - r) + c) 0 := by
  have hdiv : (4 * r + c) / 4 = r := by omega
  have hmod : (4 * r + c) % 4 = c := by omega
  have hinterior : (4 ≤ 4 * r + c ∧ 4 * r + c < 4 * nr) ↔ (0 < r ∧ r < nr) := by omega
  rw [List.getD_eq_getElem _ _ (by rw [invSchedule_length]; omega)]
  simp only [invSchedule, List.getElem_map, List.getElem_range, hdiv, hmod, hinterior]

theorem roundKey_invSchedule (w : List Word) {nr r : Nat} (hr : r ≤ nr) :
    roundKey (invSchedule w nr) r =
      if 0 < r ∧ r < nr then (roundKey w (nr - r)).map invMixColumn else roundKey w (nr - r) := by
  have hword (c : Nat) (hc : c < 4) := invSchedule_getD w hr hc
  have h0 := hword 0 (by decide)
  rw [Nat.add_zero, Nat.add_zero] at h0
  rw [roundKey, h0, hword 1 (by decide), hword 2 (by decide), hword 3 (by decide)]
  split <;> rfl

theorem invSchedule_inverseKeys (w : List Word) (nr : Nat) : InverseKeys w (invSchedule w nr) nr where
  first := by simp [roundKey_invSchedule]
  interior r hpos hlt := by
    rw [roundKey_invSchedule w hlt.le, if_pos ⟨hpos, hlt⟩, funext invMixColumn_eq_mixColumn]
  last := by simp [roundKey_invSchedule]

/-- The two contexts of a key hold round keys that undo each other. -/
theorem keyedContext_inverseKeys {key : List Byte} (h : legalKeyLength key.length = true) :
    InverseKeys (keyedContext .encrypt key).rk.toList (keyedContext .decrypt key).rk.toList (roundCount key) := by
  obtain ⟨hfirst, hinterior, hlast⟩ := invSchedule_inverseKeys (keyExpand key) (roundCount key)
  constructor <;> simp only [roundKey_keyedContext _ h] <;> assumption

theorem cipher_encrypt {key : List Byte} (h : legalKeyLength key.length = true) (x : List Byte) :
    cipher (keyedContext .encrypt key) x = encBlock (keyedContext .encrypt key).rk.toList (roundCount key) x := by
  rw [← keyedContext_nr .encrypt h]
  rfl

theorem cipher_decrypt {key : List Byte} (h : legalKeyLength key.length = true) (x : List Byte) :
    cipher (keyedContext .decrypt key) x = decBlock (keyedContext .decrypt key).rk.toList (roundCount key) x := by
  rw [← keyedContext_nr .decrypt h]
  rfl

/-! ### Rounds undone -/

theorem invShiftRows_shiftRows (s : Columns) : invShiftRows (boxColumn sd) (shiftRows (boxColumn se) s) = s := by
  simp [invShiftRows, shiftRows, boxColumn, sd_se]

variable {w v : List Word} {nr : Nat}

/-- Decryption round `r` takes what the S-boxes and the shift make of a state after encryption round `nr - r` to
what they make of the state before it. -/
theorem decRound_encRound (h : InverseKeys w v nr) {r : Nat} (hpos : 0 < r) (hlt : r < nr) (s : Columns) :
    decRound v r (shiftRows (boxColumn se) (encRound w (nr - r) s)) = shiftRows (boxColumn se) s := by
  rw [decRound_eq, invShiftRows_shiftRows, encRound_eq, addRoundKey_eq_xor, addRoundKey_eq_xor,
    Columns.map_xor (mixColumn_xor _ _ _ _), Columns.map_map_cancel invMix_mix, h.interior r hpos hlt,
    Columns.xor_xor_cancel]

/-- So `a` decryption rounds undo the last `a` encryption rounds before the final one. -/
theorem decRounds_encRounds (h : InverseKeys w v nr) (a b : Nat) (hnr : a + b + 1 = nr) (s : Columns) :
    roundsFrom (decRound v) a 1 (shiftRows (boxColumn se) (roundsFrom (encRound w) (a + b) 1 s)) =
      shiftRows (boxColumn se) (roundsFrom (encRound w) b 1 s) := by
  induction a generalizing b with
  | zero => rw [Nat.zero_add, roundsFrom]
  | succ a ih =>
    rw [roundsFrom_succ, show a + 1 + b = a + (b + 1) by omega, ih (b + 1) (by omega), roundsFrom_succ,
      show 1 + b = nr - (1 + a) by omega, decRound_encRound h (by omega) (by omega)]

/-- The first key addition of decryption cancels the last one of encryption, the rounds undo the rounds, and
the final round and its key leave the block. -/
theorem decBlock_encBlock (h : InverseKeys w v nr) (hnr : 0 < nr) {p : List Byte} (hp : p.length = 16) :
    decBlock v nr (encBlock w nr p) = p := by
  have hstart (s : Columns) : addRoundKey v 0 (encFinal w nr s) = shiftRows (boxColumn se) s := by
    rw [encFinal, addRoundKey_eq_xor, addRoundKey_eq_xor, h.first, Columns.xor_xor_cancel]
  have hfinal (s : Columns) : decFinal v nr (shiftRows (boxColumn se) (addRoundKey w 0 s)) = s := by
    rw [decFinal, invShiftRows_shiftRows, addRoundKey_eq_xor, addRoundKey_eq_xor, h.last, Columns.xor_xor_cancel]
  have hrounds := decRounds_encRounds h (nr - 1) 0 (by omega) (addRoundKey w 0 (loadColumns p))
  rw [Nat.add_zero] at hrounds
  rw [encBlock, decBlock, loadColumns_storeColumns, hstart, hrounds, roundsFrom, hfinal, storeColumns_loadColumns hp]

end Sys2Proof.Machine
end

section
/-! PROOF. The statements of spec/40_aes_primitives.md. -/

namespace Sys2Proof.Proofs

open Sys2Proof.Machine Sys2Proof.Statements

/-- Settles O21: each table round is the byte-wise round on the bytes of its columns, and the rounds go by
induction on their number. -/
theorem blockCipherIsFips197 : Obligations.BlockCipherIsFips197 := by
  intro c p hp
  unfold cipher
  cases c.dir with
  | encrypt => exact encBlock_eq_fipsCipher _ _ hp
  | decrypt => exact decBlock_eq_fipsCipher _ _ hp

/-- Settles O26: the decryption context holds the inverse of the encryption context's round keys, so each of its
rounds undoes one of encryption. -/
theorem decryptionUndoesEncryption : Obligations.DecryptionUndoesEncryption := by
  intro key p hkey hp
  rw [cipher_encrypt hkey, cipher_decrypt hkey]
  exact decBlock_encBlock (keyedContext_inverseKeys hkey) (roundCount_pos key) hp

/-- Settles O18: the multiples by the unit and additivity of the product, the S-boxes byte by byte. -/
theorem tablesHaveTheirValues : Obligations.TablesHaveTheirValues := by
  refine ⟨fun x => ⟨f2_eq_gmul x, f3_eq_gmul x, f4_eq_gmul x, f8_eq_gmul x, f9_eq_gmul x, fb_eq_gmul x, fd_eq_gmul x,
    fe_eq_gmul x, sd_se x⟩, fun x => ⟨affineInv (se x), affineInv_se_inverse x, (affine_affineInv (se x)).symm⟩, ?spot⟩
  case spot => decide

end Sys2Proof.Proofs
end

section
/-! SUPPORT. The words of the two schedules, and the bytes a schedule is read out as (spec/41_aes_key_schedule.md
R141, R142, R144). -/

namespace Sys2Proof.Machine

/-! ### The expansion (R141) -/

theorem expandKey_prefix (nk n : Nat) (w : List Word) : w <+: expandKey nk n w := by
  induction n generalizing w with
  | zero => exact List.prefix_rfl
  | succ n ih => exact (List.prefix_append _ _).trans (ih _)

theorem expandKey_getD_of_lt (nk n : Nat) {w : List Word} {i : Nat} (h : i < w.length) :
    (expandKey nk n w).getD i 0 = w.getD i 0 := by
  obtain ⟨more, hmore⟩ := expandKey_prefix nk n w
  rw [← hmore, List.getD_append _ _ _ _ h]

/-- Each added word is the next one of the words before it. -/
theorem expandKey_getD_of_le (nk n : Nat) {w : List Word} {i : Nat} (hi : w.length ≤ i) (hn : i < w.length + n) :
    (expandKey nk n w).getD i 0 = nextKeyWord nk ((expandKey nk n w).take i) := by
  induction n generalizing w with
  | zero => omega
  | succ n ih =>
    rw [expandKey]
    have hlen : (w ++ [nextKeyWord nk w]).length = w.length + 1 := List.length_append
    rcases Nat.eq_or_lt_of_le hi with rfl | hlt
    · have hprefix := (List.prefix_append w _).trans (expandKey_prefix nk n (w ++ [nextKeyWord nk w]))
      rw [expandKey_getD_of_lt nk n (by omega), ← List.prefix_iff_eq_take.mp hprefix]
      simp
    · exact ih (by omega) (by omega)

/-- The recurrence, on a list that holds at least `i` words. -/
theorem nextKeyWord_take {nk i : Nat} {w : List Word} (hnk : 0 < nk) (hi : nk ≤ i) (hw : i ≤ w.length) :
    nextKeyWord nk (w.take i) = w.getD (i - nk) 0 ^^^
      (if i % nk = 0 then subWord (rotWord (w.getD (i - 1) 0)) ^^^ be32 (rcon (i / nk)) 0 0 0
       else if nk = 8 ∧ i % nk = 4 then subWord (w.getD (i - 1) 0) else w.getD (i - 1) 0) := by
  have hlen : (w.take i).length = i := List.length_take_of_le hw
  have hget (j : Nat) (hj : j < i) : (w.take i).getD j 0 = w.getD j 0 := by
    simp only [List.getD_eq_getElem?_getD, List.getElem?_take_of_lt hj]
  simp only [nextKeyWord, hlen, hget (i - 1) (by omega), hget (i - nk) (by omega)]

@[simp] theorem keyWords_length (key : List Byte) : (keyWords key).length = key.length / 4 := by simp [keyWords]

theorem keyWords_getD {key : List Byte} {i : Nat} (h : i < key.length / 4) :
    (keyWords key).getD i 0 = wordAt key i := by
  simp [keyWords, h]

theorem keyExpand_getD_of_lt {key : List Byte} {i : Nat} (h : i < key.length / 4) :
    (keyExpand key).getD i 0 = wordAt key i := by
  rw [keyExpand, expandKey_getD_of_lt _ _ (by rwa [keyWords_length]), keyWords_getD h]

theorem keyExpand_getD_of_le {key : List Byte} {i : Nat} (hi : key.length / 4 ≤ i)
    (hn : i < 4 * (roundCount key + 1)) :
    (keyExpand key).getD i 0 = nextKeyWord (key.length / 4) ((keyExpand key).take i) :=
  expandKey_getD_of_le _ _ (by rwa [keyWords_length]) (by rw [keyWords_length]; omega)

theorem legalKeyLength_iff {n : Nat} : legalKeyLength n = true ↔ n = 16 ∨ n = 24 ∨ n = 32 := by
  simp [legalKeyLength, or_assoc]

/-! ### The decryption schedule (R142) -/

/-- The matrix of decryption in the multiples of R112. -/
theorem invMixColumn_eq_be32 (w : Word) : invMixColumn w =
    be32 (fe (byteOf w 3) ^^^ fb (byteOf w 2) ^^^ fd (byteOf w 1) ^^^ f9 (byteOf w 0))
      (f9 (byteOf w 3) ^^^ fe (byteOf w 2) ^^^ fb (byteOf w 1) ^^^ fd (byteOf w 0))
      (fd (byteOf w 3) ^^^ f9 (byteOf w 2) ^^^ fe (byteOf w 1) ^^^ fb (byteOf w 0))
      (fb (byteOf w 3) ^^^ fd (byteOf w 2) ^^^ f9 (byteOf w 1) ^^^ fe (byteOf w 0)) := by
  simp only [invMixColumn_eq_mixColumn, mixColumn, fe_eq_gmul, fb_eq_gmul, fd_eq_gmul, f9_eq_gmul]

/-- Word `k` of the decryption schedule: word `k % 4` of the round `k / 4` counted from the last. -/
theorem invSchedule_getD_word (w : List Word) {nr k : Nat} (hk : k < 4 * (nr + 1)) :
    (invSchedule w nr).getD k 0 =
      if 4 ≤ k ∧ k < 4 * nr then invMixColumn (w.getD (4 * (nr - k / 4) + k % 4) 0)
      else w.getD (4 * (nr - k / 4) + k % 4) 0 := by
  have hword := invSchedule_getD w (show k / 4 ≤ nr by omega) (Nat.mod_lt k (show 0 < 4 by decide))
  have hinterior : (0 < k / 4 ∧ k / 4 < nr) ↔ (4 ≤ k ∧ k < 4 * nr) := by omega
  rwa [Nat.div_add_mod, if_congr hinterior rfl rfl] at hword

/-! ### The bytes of a schedule (R144) -/

theorem bytes32_getD (w : Word) {j : Nat} (h : j < 4) : (bytes32 w).getD j 0 = byteOf w (3 - j) := by
  interval_cases j <;> rfl

/-- Byte `j` of word `k`, most significant first, of words laid side by side. -/
theorem flatMap_bytes32_getD (l : List Word) (k : Nat) {j : Nat} (hj : j < 4) :
    (l.flatMap bytes32).getD (4 * k + j) 0 = byteOf (l.getD k 0) (3 - j) := by
  induction l generalizing k with
  | nil => simp [byteOf]
  | cons w l ih =>
    rw [List.flatMap_cons]
    cases k with
    | zero =>
      rw [Nat.mul_zero, Nat.zero_add, List.getD_append _ _ _ _ (by rwa [bytes32_length]), bytes32_getD w hj,
        List.getD_cons_zero]
    | succ k =>
      rw [List.getD_append_right _ _ _ _ (by rw [bytes32_length]; omega), bytes32_length,
        show 4 * (k + 1) + j - 4 = 4 * k + j by omega, ih, List.getD_cons_succ]

theorem scheduleBytes_getD (rk : List Word) {n k j : Nat} (hk : k < n) (hj : j < 4) :
    (scheduleBytes rk n).getD (4 * k + j) 0 = byteOf (rk.getD k 0) (3 - j) := by
  rw [scheduleBytes, flatMap_bytes32_getD _ _ hj]
  simp only [List.getD_eq_getElem?_getD, List.getElem?_take_of_lt hk]

end Sys2Proof.Machine
end

section
/-! SUPPORT. The key schedule commands (spec/41_aes_key_schedule.md R140, R144, R145): what each does once its checks
pass, and what the contexts then are. -/

namespace Sys2Proof.Machine

open Sys2Proof.Statements

variable {s : State} {n m : BitVec 4}

/-- A started command that ends without error leaves `STATUS` so (R304 step 3). -/
theorem finish_eq_endedOk (h : Started s) : s.status.finish = endedOk s := by
  obtain ⟨hstatus, -⟩ := h
  rw [hstatus]
  rfl

theorem State.aesCtx_setAesCtx_other (c : AesCtx) (h : m ≠ n) : (s.setAesCtx n c).aesCtx m = s.aesCtx m :=
  entry_setEntry_other _ _ _ _ _ fun he => h (BitVec.eq_of_toNat_eq he.symm)

theorem exec_aesSetKey (d : Direction) (hlegal : legalKeyLength s.len3 = true) (hfits : Fits s.addr0 s.len3) :
    exec (.aesSetKey n d) s = .next ((s.setAesCtx n (keyedContext d (s.mem.readN s.addr0 s.len3))).finish
      (BitVec.ofNat 32 (roundCount (s.mem.readN s.addr0 s.len3)))) := by
  refine State.guarded_of_pass (List.forall_mem_cons.mpr ⟨?length, List.forall_mem_singleton.mpr ?range⟩)
  case length => simp [hlegal]
  case range => exact (rangeCheck_passes_iff_fits _ _ _).mpr hfits

theorem exec_aesReadRk (hvalid : (s.aesCtx n).valid = true) (hfits : Fits s.addr2 (4 * (s.aesCtx n).wordCount)) :
    exec (.aesReadRk n) s =
      .next ((s.setMem (s.mem.writeN s.addr2 (scheduleBytes (s.aesCtx n).rk.toList (s.aesCtx n).wordCount))).finish
        ((s.aesCtx n).nr.setWidth 32)) := by
  refine State.guarded_of_pass (List.forall_mem_cons.mpr ⟨?valid, List.forall_mem_singleton.mpr ?range⟩)
  case valid => simp [hvalid]
  case range => exact (rangeCheck_passes_iff_fits _ _ _).mpr hfits

theorem exec_aesClearKey (n : BitVec 4) (s : State) :
    exec (.aesClearKey n) s = .next ((s.setAesCtx n AesCtx.empty).finish 0) :=
  State.guarded_of_pass (s := s) (cs := []) (List.forall_mem_nil _)

/-- A context holds its key's schedule, and zeros past it (R140). -/
theorem keyedContext_rk_entry (d : Direction) {key : List Byte} (h : legalKeyLength key.length = true) (k : Nat) :
    entry (keyedContext d key).rk k 0 = (keySchedule d key).getD k 0 := by
  have hrounds := roundCount_le h
  exact entry_fillBuffer _ 0 k (by rw [keySchedule_length]; omega)

theorem keySchedule_getD_past (d : Direction) {key : List Byte} {k : Nat} (h : 4 * (roundCount key + 1) ≤ k) :
    (keySchedule d key).getD k 0 = 0 :=
  List.getD_eq_default _ _ (by rwa [keySchedule_length])

/-- The bytes `AES_READ_RK` writes are all of those its range check has seen. -/
theorem AesCtx.length_scheduleBytes {c : AesCtx} (h : c.nr.toNat ≤ 14) :
    (scheduleBytes c.rk.toList c.wordCount).length = 16 * (c.nr.toNat + 1) := by
  rw [scheduleBytes_length, Vector.length_toList, AesCtx.wordCount]
  omega

end Sys2Proof.Machine
end

section
/-! PROOF. The statements of spec/41_aes_key_schedule.md. -/

namespace Sys2Proof.Proofs

open Sys2Proof.Machine Sys2Proof.Statements

/-- Settles O19: the expansion only appends, so that its first words stay the key's and each later one is the
`nextKeyWord` of the words before it. -/
theorem keyExpansionFollowsRecurrence : Obligations.KeyExpansionFollowsRecurrence := by
  intro key hkey
  have hlengths := legalKeyLength_iff.mp hkey
  refine ⟨rfl, keyExpand_length key, fun i hi => keyExpand_getD_of_lt hi, fun i hi hn => ?recurrence⟩
  case recurrence =>
    have hwords : i ≤ (keyExpand key).length := by rw [keyExpand_length]; exact hn.le
    exact (keyExpand_getD_of_le hi hn).trans (nextKeyWord_take (by omega) hi hwords)

/-- Settles O20: word by word, the interior ones by the matrix that the table lookups amount to. -/
theorem inverseScheduleReversesRounds : Obligations.InverseScheduleReversesRounds := by
  intro w nr k hk
  have hword := invSchedule_getD_word w hk
  refine ⟨invSchedule_length w nr, fun hends => ?ends, fun h4 hlt => ?interior⟩
  case ends => rw [hword, if_neg (by omega)]
  case interior => rw [hword, if_pos ⟨h4, hlt⟩, invMixColumn_eq_be32]

/-- Settles O22: the checks pass, and the context named by `INST` is the keyed one. -/
theorem setKeyLoadsSchedule : Obligations.SetKeyLoadsSchedule := by
  intro n d s hn hstarted hlegal hfits
  have hkeyLength : (s.mem.readN s.addr0 s.len3).length = s.len3 := Memory.readN_length _ _ _
  have hrounds : roundCount (s.mem.readN s.addr0 s.len3) = s.len3 / 4 + 6 := by rw [roundCount, hkeyLength]
  have hkey : legalKeyLength (s.mem.readN s.addr0 s.len3).length = true := by rwa [hkeyLength]
  have hrange := roundCount_le hkey
  refine ⟨_, exec_aesSetKey d hlegal hfits, ?frame, ?result, ?context⟩
  case frame => rw [← finish_eq_endedOk hstarted]; rfl
  case result => rw [State.finish_result, hrounds, BitVec.toNat_ofNat, Nat.mod_eq_of_lt (by omega)]
  case context =>
    simp only [State.finish_aesCtx, State.aesCtx_setAesCtx _ _ _ hn, keyedContext_rk_entry d hkey]
    exact ⟨rfl, rfl, (keyedContext_nr d hkey).trans hrounds, fun _ _ => trivial,
      fun k hk => keySchedule_getD_past d (by omega), fun m hm => State.aesCtx_setAesCtx_other _ hm⟩

/-- Settles O23: the one ascending write has the bytes of the schedule where it writes, and changes no other. -/
theorem readRkWritesSchedule : Obligations.ReadRkWritesSchedule := by
  intro n s hstarted hmem hvalid hnr hfits
  have hbytes := AesCtx.length_scheduleBytes hnr
  have hchecked : Fits s.addr2 (4 * (s.aesCtx n).wordCount) := by rwa [AesCtx.wordCount, ← Nat.mul_assoc]
  refine ⟨_, exec_aesReadRk hvalid hchecked, ?frame, ?result, fun k j hk hj => ?inside, fun a ha => ?outside⟩
  case frame => rw [← finish_eq_endedOk hstarted]; rfl
  case result => exact BitVec.toNat_setWidth_of_le (by decide)
  case inside =>
    rw [State.finish_mem, State.setMem_mem, Nat.add_assoc, Memory.read_writeN_inside _ _ _ _ hmem (by omega),
      scheduleBytes_getD _ (show k < (s.aesCtx n).wordCount from hk) hj]
    rfl
  case outside => exact Memory.read_writeN_outside _ _ _ _ (by omega)

/-- Settles O24: there is no check, and the context named by `INST` is the empty one. -/
theorem clearKeyEmptiesContext : Obligations.ClearKeyEmptiesContext := by
  intro n s hn hstarted
  refine ⟨_, exec_aesClearKey n s, ?frame, ?context⟩
  case frame => rw [← finish_eq_endedOk hstarted]; rfl
  case context =>
    simp only [State.finish_aesCtx, State.aesCtx_setAesCtx _ _ _ hn]
    exact ⟨rfl, rfl, rfl, fun k => entry_replicate k 0, fun m hm => State.aesCtx_setAesCtx_other _ hm⟩

end Sys2Proof.Proofs
end

section
/-! SUPPORT. `AES_PROCESS_BLOCK` (spec/42_aes_block.md R160): the block it writes, byte by byte, and what it does once
its checks pass. -/

namespace Sys2Proof.Machine

open Sys2Proof.Statements

/-- The exclusive-or, byte by byte (R10). -/
theorem xorBytes_getD {u v : List Byte} {j : Nat} (hu : j < u.length) (hv : j < v.length) :
    (xorBytes u v).getD j 0 = u.getD j 0 ^^^ v.getD j 0 := by
  have hxor : j < (xorBytes u v).length := by rw [xorBytes_length]; omega
  rw [List.getD_eq_getElem _ _ hu, List.getD_eq_getElem _ _ hv, List.getD_eq_getElem _ _ hxor]
  exact List.getElem_zipWith

/-- The xor block of a command of the cipher: the 16 bytes at `a` with `XOR`, zeros without (R160, R170). -/
def xorBlock (x : Bool) (m : Memory) (a : Nat) : List Byte := if x then m.readN a 16 else zeroBlock

@[simp] theorem xorBlock_length (x : Bool) (m : Memory) (a : Nat) : (xorBlock x m a).length = 16 := by
  cases x
  · exact zeroBlock_length
  · exact Memory.readN_length m a 16

theorem xorBlock_getD (x : Bool) (m : Memory) (a : Nat) {j : Nat} (hj : j < 16) :
    (xorBlock x m a).getD j 0 = if x then m.read (a + j) else 0 := by
  cases x
  · exact List.getD_replicate 0 hj
  · exact Memory.readN_getD m a 16 j 0 hj

/-- The shared checks of the two commands of the cipher all pass when the context is ready and the buffers fit
(R160, R170). -/
theorem cipherChecks_pass {ready : Check} {x : Bool} {a₀ n₀ a₁ n₁ a₂ n₂ : Nat} (hready : ready.fails = false)
    (h0 : Fits a₀ n₀) (h1 : x = true → Fits a₁ n₁) (h2 : Fits a₂ n₂) :
    ∀ c ∈ [ready, rangeCheck a₀ n₀ .a0] ++ (if x then [rangeCheck a₁ n₁ .a1] else []) ++ [rangeCheck a₂ n₂ .a2],
      c.fails = false := by
  refine List.forall_mem_append.mpr ⟨List.forall_mem_append.mpr ⟨?readyAndInput, optionalRangeCheck_passes h1⟩, ?output⟩
  case readyAndInput =>
    exact List.forall_mem_cons.mpr ⟨hready, List.forall_mem_singleton.mpr ((rangeCheck_passes_iff_fits _ _ _).mpr h0)⟩
  case output => exact List.forall_mem_singleton.mpr ((rangeCheck_passes_iff_fits _ _ _).mpr h2)

theorem exec_aesProcessBlock {s : State} {n : BitVec 4} {x : Bool} (hvalid : (s.aesCtx n).valid = true)
    (h0 : Fits s.addr0 16) (h1 : x = true → Fits s.addr1 16) (h2 : Fits s.addr2 16) :
    exec (.aesProcessBlock n x) s = .next ((s.setMem (s.mem.writeN s.addr2
      (xorBytes (cipher (s.aesCtx n) (s.mem.readN s.addr0 16)) (xorBlock x s.mem s.addr1)))).finish 0) :=
  State.guarded_of_pass (cipherChecks_pass (by simp [hvalid]) h0 h1 h2)

end Sys2Proof.Machine
end

section
/-! PROOF. The statement of spec/42_aes_block.md. -/

namespace Sys2Proof.Proofs

open Sys2Proof.Machine Sys2Proof.Statements

/-- Settles O25: the block it writes is made of bytes of the memory before the write, so that overlapping buffers
need no case of their own (R161). -/
theorem processBlockWritesCipher : Obligations.ProcessBlockWritesCipher := by
  intro n x s hstarted hmem hvalid h0 h1 h2
  have hcipher := cipher_length (s.aesCtx n) (s.mem.readN s.addr0 16)
  have hxor := xorBlock_length x s.mem s.addr1
  have hblock : (xorBytes (cipher (s.aesCtx n) (s.mem.readN s.addr0 16)) (xorBlock x s.mem s.addr1)).length = 16 := by
    rw [xorBytes_length, hcipher, hxor]
    rfl
  refine ⟨_, exec_aesProcessBlock hvalid h0 h1 h2, ?frame, fun j hj => ?inside, fun a ha => ?outside⟩
  case frame => rw [← finish_eq_endedOk hstarted]; rfl
  case inside =>
    rw [State.finish_mem, State.setMem_mem, Memory.read_writeN_inside _ _ _ _ hmem (by omega),
      xorBytes_getD (by omega) (by omega), xorBlock_getD x s.mem s.addr1 hj]
  case outside => exact Memory.read_writeN_outside _ _ _ _ (by omega)

end Sys2Proof.Proofs
end

section
/-! SUPPORT. The counter increment of the bulk path (spec/43_aes_bulk.md R171): byte strings as big-endian numbers, and
the two halves of an incremented block. -/

namespace Sys2Proof.Machine

theorem beNat_append_singleton (x : List Byte) (b : Byte) : beNat (x ++ [b]) = 256 * beNat x + b.toNat := by
  simp [beNat]

/-- The last of the bytes of a number holds its remainder by 256, those before it its quotient. -/
theorem beBytes_succ (n v : Nat) : beBytes (n + 1) v = beBytes n (v / 256) ++ [BitVec.ofNat 8 v] := by
  have hhead : ∀ i ∈ List.range n,
      BitVec.ofNat 8 (v / 256 ^ (n + 1 - 1 - i)) = BitVec.ofNat 8 (v / 256 / 256 ^ (n - 1 - i)) := by
    intro i hi
    have hin := List.mem_range.mp hi
    rw [Nat.div_div_eq_div_mul, ← Nat.pow_succ', show n + 1 - 1 - i = n - 1 - i + 1 by omega]
  rw [beBytes, List.range_succ, List.map_append, List.map_congr_left hhead]
  simp [beBytes]

theorem beNat_beBytes (n v : Nat) : beNat (beBytes n v) = v % 256 ^ n := by
  induction n generalizing v with
  | zero => simp [beBytes, beNat, Nat.mod_one]
  | succ n ih =>
    have hsplit : v % 256 ^ (n + 1) = v % 256 + 256 * (v / 256 % 256 ^ n) := by rw [Nat.pow_succ', Nat.mod_mul]
    rw [beBytes_succ, beNat_append_singleton, ih, BitVec.toNat_ofNat, hsplit, Nat.add_comm]

section
variable {c : Nat} {p : List Byte}

theorem ctrIncWidth_take (hp : p.length = 16) : (ctrIncWidth c p).take (16 - c) = p.take (16 - c) :=
  List.take_left' (by rw [List.length_take]; omega)

theorem ctrIncWidth_drop (hp : p.length = 16) :
    (ctrIncWidth c p).drop (16 - c) = beBytes c ((beNat (p.drop (16 - c)) + 1) % 2 ^ (8 * c)) :=
  List.drop_left' (by rw [List.length_take]; omega)

/-- The bytes of the counter, read as a number, grow by 1 (R171). -/
theorem beNat_ctrIncWidth_drop (hp : p.length = 16) :
    beNat ((ctrIncWidth c p).drop (16 - c)) = (beNat (p.drop (16 - c)) + 1) % 2 ^ (8 * c) := by
  have hbase : 2 ^ (8 * c) = 256 ^ c := by rw [Nat.pow_mul]
  rw [ctrIncWidth_drop hp, beNat_beBytes, hbase, Nat.mod_mod]

end

end Sys2Proof.Machine
end

section
/-! SUPPORT. `AES_PROCESS_BLOCKS` (spec/43_aes_bulk.md R170 to R175): what one pass of its loop makes of memory, the
memory after all passes, and what the command does once its checks pass. -/

namespace Sys2Proof.Machine

open Sys2Proof.Statements

/-! ### One pass -/

/-- The block a pass writes out (R172): the xor block `v` goes in before the cipher with `XOR_INPUT`, after it
without. -/
def outputBlock (c : AesCtx) (f : BulkFlags) (p v : List Byte) : List Byte :=
  if f.xorInput then cipher c (xorBytes p v) else xorBytes (cipher c p) v

/-- The memory a pass on the input at `a₀`, the xor block at `a₁` and the output at `a₂` makes of `m` (R170). -/
def passMemory (c : AesCtx) (f : BulkFlags) (a₀ a₁ a₂ : Nat) (m : Memory) : Memory :=
  let p := m.readN a₀ 16
  let m' := m.writeN a₂ (outputBlock c f p (xorBlock f.xor m a₁))
  if f.inIsCounter then m'.writeN a₀ (ctrInc p) else m'

/-- The memory pass `k` of the bulk command of state `s` makes of `m`: its pointers step by `inInc`, 16 and `outInc`
(R170). -/
def bulkPass (c : AesCtx) (f : BulkFlags) (s : State) (m : Memory) (k : Nat) : Memory :=
  passMemory c f (s.addr0 + k * f.inInc) (s.addr1 + 16 * k) (s.addr2 + k * f.outInc) m

/-- The memory after the first `n` passes. -/
def bulkMemory (c : AesCtx) (f : BulkFlags) (s : State) (n : Nat) : Memory :=
  (List.range n).foldl (bulkPass c f s) s.mem

section
variable (c : AesCtx) (f : BulkFlags) {s : State} {nb : Nat}

@[simp] theorem outputBlock_length (p : List Byte) (x : Bool) (m : Memory) (a : Nat) :
    (outputBlock c f p (xorBlock x m a)).length = 16 :=
  bulkOutput_length c f.xorInput p _ (xorBlock_length x m a)

/-- A counter does not step, so that `A0` is where the pass read it and where it goes back. -/
theorem inInc_of_inIsCounter {f : BulkFlags} (h : f.inIsCounter = true) : f.inInc = 0 := by
  simp [BulkFlags.inInc, h]

theorem bulkBlock_mem (s : State) : (bulkBlock c f s).mem = bulkPass c f s s.mem s.latch.k := by
  simp only [bulkPass, passMemory]
  cases hc : f.inIsCounter
  · simp only [bulkBlock, hc]
    rfl
  · simp only [bulkBlock, hc, inInc_of_inIsCounter hc, Nat.mul_zero, Nat.add_zero]
    rfl

theorem bulkMemory_zero (s : State) : bulkMemory c f s 0 = s.mem := rfl

theorem bulkMemory_succ (s : State) (n : Nat) :
    bulkMemory c f s (n + 1) = bulkPass c f s (bulkMemory c f s n) n := by
  rw [bulkMemory, List.range_succ, List.foldl_append]
  rfl

/-- One pass is made at the pointers themselves. -/
theorem bulkMemory_one (s : State) : bulkMemory c f s 1 = passMemory c f s.addr0 s.addr1 s.addr2 s.mem := by
  rw [bulkMemory_succ, bulkMemory_zero, bulkPass, Nat.zero_mul, Nat.zero_mul]
  rfl

/-- The loop, run from the first block, makes these passes of memory. -/
theorem bulkLoop_mem (hk : s.latch.k = 0) (n : Nat) : (bulkLoop c f n s).mem = bulkMemory c f s n := by
  induction n with
  | zero => rfl
  | succ n ih =>
    have hframe := bulkLoop_frame c f n s
    rw [hk, Nat.zero_add] at hframe
    rw [bulkLoop_succ, bulkBlock_mem, ih, bulkMemory_succ, hframe]
    rfl

/-- A pass leaves the bytes outside its output block and its counter alone. -/
theorem passMemory_read_outside {a₀ a₁ a₂ a : Nat} (m : Memory) (hout : ¬ (a₂ ≤ a ∧ a < a₂ + 16))
    (hcounter : f.inIsCounter = true → ¬ (a₀ ≤ a ∧ a < a₀ + 16)) : (passMemory c f a₀ a₁ a₂ m).read a = m.read a := by
  have hwrite : (m.writeN a₂ (outputBlock c f (m.readN a₀ 16) (xorBlock f.xor m a₁))).read a = m.read a :=
    Memory.read_writeN_outside _ _ _ _ (by rw [outputBlock_length]; omega)
  unfold passMemory
  split
  · rename_i hc
    have hoff := hcounter hc
    rw [Memory.read_writeN_outside _ _ _ _ (by rw [ctrInc_length _ (by simp)]; omega), hwrite]
  · exact hwrite

/-- All passes leave the bytes outside the output range and the counter alone (R170). -/
theorem bulkMemory_read_outside {a n : Nat} (hn : n ≤ nb) (hout : ¬ (s.addr2 ≤ a ∧ a < s.addr2 + bulkOutLength f nb))
    (hcounter : f.inIsCounter = true → ¬ (s.addr0 ≤ a ∧ a < s.addr0 + 16)) :
    (bulkMemory c f s n).read a = s.mem.read a := by
  induction n with
  | zero => rfl
  | succ n ih =>
    have hblock := bulkOutBlock_le (f := f) (show n < nb from hn)
    rw [bulkMemory_succ, bulkPass, passMemory_read_outside c f _ (by omega) ?counter, ih (by omega)]
    case counter =>
      intro hc
      rw [inInc_of_inIsCounter hc, Nat.mul_zero, Nat.add_zero]
      exact hcounter hc

end

/-! ### The command -/

/-- The ranges of a bulk command fit (R170). -/
def BulkFits (f : BulkFlags) (s : State) : Prop :=
  Fits s.addr0 (bulkInLength f s.blockCount) ∧ (f.xor = true → Fits s.addr1 (16 * s.blockCount)) ∧
    Fits s.addr2 (bulkOutLength f s.blockCount)

section
variable {s : State} {n : BitVec 4} {x y d c : Bool}

theorem bulkFits_iff : BulkFits ⟨x, y, d, c⟩ s ↔
    Fits s.addr0 (if d || c then 16 else 16 * (s.len3 / 16)) ∧ (x = true → Fits s.addr1 (16 * (s.len3 / 16))) ∧
      Fits s.addr2 (if d then 16 else 16 * (s.len3 / 16)) := by
  rw [BulkFits, bulkInLength_eq, bulkOutLength_eq]
  rfl

theorem bulkChecks_pass {f : BulkFlags} (hvalid : (s.aesCtx n).valid = true) (hfits : 16 ≤ s.len3 → BulkFits f s) :
    ∀ e ∈ bulkChecks n f s, e.fails = false := by
  have hready : (⟨!(s.aesCtx n).valid, .notReady, .inst⟩ : Check).fails = false := by simp [hvalid]
  by_cases hlen : 16 ≤ s.len3
  · obtain ⟨hin, hxor, hout⟩ := hfits hlen
    rw [bulkChecks_of_blocks hlen]
    exact cipherChecks_pass hready hin hxor hout
  · have hnone : ¬ 0 < s.blockCount := by rw [State.blockCount]; omega
    simp only [bulkChecks, if_neg hnone]
    exact List.forall_mem_singleton.mpr hready

/-- Once its checks pass, the command makes a pass for each block and ends (R170). -/
theorem exec_aesProcessBlocks (hvalid : (s.aesCtx n).valid = true) (hk : s.latch.k = 0)
    (hfits : 16 ≤ s.len3 → BulkFits ⟨x, y, d, c⟩ s) :
    exec (.aesProcessBlocks n x y d c) s =
      .next ((s.setMem (bulkMemory (s.aesCtx n) ⟨x, y, d, c⟩ s (s.len3 / 16))).finish
        (BitVec.ofNat 32 (s.len3 % 16))) := by
  have hloop : bulkLoop (s.aesCtx n) ⟨x, y, d, c⟩ (s.blockCount - s.latch.k) s =
      (s.setMem (bulkMemory (s.aesCtx n) ⟨x, y, d, c⟩ s s.blockCount)).setK s.blockCount := by
    rw [bulkLoop_frame, bulkLoop_mem _ _ hk, hk, Nat.sub_zero, Nat.zero_add]
  refine (State.guarded_of_pass (bulkChecks_pass hvalid hfits)).trans ?_
  rw [hloop]
  rfl

/-- On one block the three buffers are 16 bytes each, and there is one pass. -/
theorem exec_aesProcessBlocks_oneBlock (hvalid : (s.aesCtx n).valid = true) (hk : s.latch.k = 0) (hge : 16 ≤ s.len3)
    (hlt : s.len3 < 32) (h0 : Fits s.addr0 16) (h1 : x = true → Fits s.addr1 16) (h2 : Fits s.addr2 16) :
    exec (.aesProcessBlocks n x y d c) s =
      .next ((s.setMem (passMemory (s.aesCtx n) ⟨x, y, d, c⟩ s.addr0 s.addr1 s.addr2 s.mem)).finish
        (BitVec.ofNat 32 (s.len3 - 16))) := by
  have hone : s.len3 / 16 = 1 := by omega
  have htail : s.len3 % 16 = s.len3 - 16 := by omega
  have hfits : BulkFits ⟨x, y, d, c⟩ s := by
    rw [bulkFits_iff, hone, Nat.mul_one, ite_self, ite_self]
    exact ⟨h0, h1, h2⟩
  rw [exec_aesProcessBlocks hvalid hk fun _ => hfits, hone, htail, bulkMemory_one]

/-! ### The command on other buffers -/

theorem addressOf_ofNat {a : Nat} (h : a < 2 ^ 32) : addressOf (BitVec.ofNat 32 a) = a := by
  rw [addressOf, BitVec.toNat_ofNat, Nat.mod_mod, Nat.mod_eq_of_lt h]

/-- What the one-block command on given buffers leaves in memory; those of `A1` matter only with `XOR`. -/
theorem memoryAfter_oneBlock {a₀ a₁ a₂ : Nat} (m m' : Memory) (hvalid : (s.aesCtx n).valid = true) (hk : s.latch.k = 0)
    (h0 : a₀ + 16 ≤ 2 ^ 32) (h1 : x = true → a₁ + 16 ≤ 2 ^ 32) (h2 : a₂ + 16 ≤ 2 ^ 32) :
    memoryAfter (exec (.aesProcessBlocks n x y d c) (onBuffers s m a₀ a₁ a₂ 16)) m' =
      passMemory (s.aesCtx n) ⟨x, y, d, c⟩ a₀ a₁ a₂ m := by
  have haddr0 : (onBuffers s m a₀ a₁ a₂ 16).addr0 = a₀ := addressOf_ofNat (by omega)
  have haddr1 (hx : x = true) : (onBuffers s m a₀ a₁ a₂ 16).addr1 = a₁ := addressOf_ofNat (by have := h1 hx; omega)
  have haddr2 : (onBuffers s m a₀ a₁ a₂ 16).addr2 = a₂ := addressOf_ofNat (by omega)
  have hlen : (onBuffers s m a₀ a₁ a₂ 16).len3 = 16 := rfl
  have hxor : xorBlock x m (onBuffers s m a₀ a₁ a₂ 16).addr1 = xorBlock x m a₁ := by
    cases x
    · rfl
    · rw [haddr1 rfl]
  have hexec := exec_aesProcessBlocks_oneBlock (s := onBuffers s m a₀ a₁ a₂ 16) (y := y) (d := d) (c := c) hvalid hk
    (by omega) (by omega) (by rw [haddr0]; exact .inr h0) (fun hx => by rw [haddr1 hx]; exact .inr (h1 hx))
    (by rw [haddr2]; exact .inr h2)
  rw [hexec, haddr0, haddr2]
  simp only [memoryAfter, State.finish_mem, State.setMem_mem, passMemory, ← hxor]
  rfl

end

/-! ### Block by block (R173, R175) -/

theorem blockEnd_le_of_fits {a n j : Nat} (h : Fits a n) (hj : j + 16 ≤ n) : a + j + 16 ≤ 2 ^ 32 := by
  obtain h | h := h <;> omega

/-- Block `k` of the input lies inside the input range. -/
theorem bulkInBlock_le {f : BulkFlags} {k nb : Nat} (hk : k < nb) : k * f.inInc + 16 ≤ bulkInLength f nb := by
  obtain ⟨x, y, d, c⟩ := f
  cases h : d || c <;> simp [bulkInLength, BulkFlags.inInc, h]
  omega

/-- When the ranges of a bulk command fit, so do those of the one-block command for its block `k`. -/
theorem BulkFits.block {f : BulkFlags} {s : State} {k : Nat} (h : BulkFits f s) (hk : k < s.blockCount) :
    s.addr0 + k * f.inInc + 16 ≤ 2 ^ 32 ∧ (f.xor = true → s.addr1 + 16 * k + 16 ≤ 2 ^ 32) ∧
      s.addr2 + k * f.outInc + 16 ≤ 2 ^ 32 := by
  obtain ⟨hin, hxor, hout⟩ := h
  exact ⟨blockEnd_le_of_fits hin (bulkInBlock_le hk), fun hx => blockEnd_le_of_fits (hxor hx) (by omega),
    blockEnd_le_of_fits hout (bulkOutBlock_le hk)⟩

/-- A pass of the loop is the one-block command on the buffers the pass has reached (R170, R173). -/
theorem memoryAfter_oneBlock_eq_bulkPass {s : State} {n : BitVec 4} {x y d c : Bool} {k : Nat} (m : Memory)
    (hvalid : (s.aesCtx n).valid = true) (hk : s.latch.k = 0) (hfits : BulkFits ⟨x, y, d, c⟩ s) (hlt : k < s.blockCount) :
    memoryAfter (exec (.aesProcessBlocks n x y d c) (onBuffers s m (s.addr0 + k * (if d || c then 0 else 16))
      (s.addr1 + 16 * k) (s.addr2 + k * (if d then 0 else 16)) 16)) m =
        bulkPass (s.aesCtx n) ⟨x, y, d, c⟩ s m k := by
  obtain ⟨hin, hxor, hout⟩ := hfits.block hlt
  exact memoryAfter_oneBlock m m hvalid hk hin hxor hout

end Sys2Proof.Machine
end

section
/-! SUPPORT. Counter mode (spec/43_aes_bulk.md R171 to R173): the counter after each pass, and the output blocks the
passes leave behind. -/

namespace Sys2Proof.Machine

open Sys2Proof.Statements

theorem Memory.readN_congr {m m' : Memory} {a n : Nat} (h : ∀ i < n, m.read (a + i) = m'.read (a + i)) :
    m.readN a n = m'.readN a n :=
  List.map_congr_left fun i hi => h i (List.mem_range.mp hi)

theorem Memory.readN_writeN_disjoint (m : Memory) {a n b : Nat} {v : List Byte} (h : Disjoint a n b v.length) :
    (m.writeN b v).readN a n = m.readN a n :=
  Memory.readN_congr fun i hi => Memory.read_writeN_outside _ _ _ _ (by obtain h | h := h <;> omega)

/-- The flags of counter mode: `XOR` and `IN_IS_COUNTER` (R173). -/
abbrev BulkFlags.counterMode : BulkFlags := ⟨true, false, false, true⟩

/-- Block `k` of a buffer shares no address with what the buffer shares none with. -/
theorem disjoint_block {a b n nb k : Nat} (h : Disjoint a (16 * nb) b n) (hk : k < nb) : Disjoint (a + 16 * k) 16 b n := by
  obtain h | h := h
  · exact .inl (by omega)
  · exact .inr (by omega)

/-! ### One pass -/

section
variable (c : AesCtx) {f : BulkFlags} {m : Memory} {a₀ a₁ a₂ : Nat}

theorem passMemory_wf (h : m.Wf) : (passMemory c f a₀ a₁ a₂ m).Wf := by
  unfold passMemory
  split
  · exact Memory.writeN_wf _ _ _ (Memory.writeN_wf _ _ _ h)
  · exact Memory.writeN_wf _ _ _ h

/-- The counter goes back last, so that it is the incremented one wherever the output went (R175). -/
theorem passMemory_counter (h : m.Wf) (hc : f.inIsCounter = true) :
    (passMemory c f a₀ a₁ a₂ m).readN a₀ 16 = ctrInc (m.readN a₀ 16) := by
  have hlen : (ctrInc (m.readN a₀ 16)).length = 16 := ctrInc_length _ (Memory.readN_length _ _ _)
  have hread := Memory.readN_writeN (m.writeN a₂ (outputBlock c f (m.readN a₀ 16) (xorBlock f.xor m a₁))) a₀
    (ctrInc (m.readN a₀ 16)) (Memory.writeN_wf _ _ _ h)
  rw [hlen] at hread
  simpa only [passMemory, if_pos hc] using hread

/-- The output block survives the write of a counter it does not overlap. -/
theorem passMemory_output (h : m.Wf) (hdisjoint : Disjoint a₂ 16 a₀ 16) :
    (passMemory c f a₀ a₁ a₂ m).readN a₂ 16 = outputBlock c f (m.readN a₀ 16) (xorBlock f.xor m a₁) := by
  have hlen : (ctrInc (m.readN a₀ 16)).length = 16 := ctrInc_length _ (Memory.readN_length _ _ _)
  have hread := Memory.readN_writeN m a₂ (outputBlock c f (m.readN a₀ 16) (xorBlock f.xor m a₁)) h
  rw [outputBlock_length] at hread
  unfold passMemory
  split
  · rw [Memory.readN_writeN_disjoint _ (by rwa [hlen]), hread]
  · exact hread

end

/-! ### All passes -/

section
variable (c : AesCtx) {f : BulkFlags} {s : State} {nb : Nat}

theorem bulkMemory_wf (h : s.mem.Wf) (n : Nat) : (bulkMemory c f s n).Wf := by
  induction n with
  | zero => exact h
  | succ n ih =>
    rw [bulkMemory_succ]
    exact passMemory_wf c ih

/-- `n` passes increment the counter `n` times (R173). -/
theorem bulkMemory_counter (h : s.mem.Wf) (hc : f.inIsCounter = true) (n : Nat) :
    (bulkMemory c f s n).readN s.addr0 16 = ctrInc^[n] (s.mem.readN s.addr0 16) := by
  induction n with
  | zero => rfl
  | succ n ih =>
    rw [bulkMemory_succ, bulkPass, inInc_of_inIsCounter hc, Nat.mul_zero, Nat.add_zero,
      passMemory_counter c (bulkMemory_wf c h n) hc, ih, Function.iterate_succ_apply']

theorem bulkPass_counterMode (m : Memory) (k : Nat) : bulkPass c .counterMode s m k =
    passMemory c .counterMode s.addr0 (s.addr1 + 16 * k) (s.addr2 + 16 * k) m := by
  rw [bulkPass, inInc_of_inIsCounter rfl, Nat.mul_zero, Nat.add_zero, Nat.mul_comm 16 k]
  rfl

/-- Counter mode leaves an xor block alone that overlaps neither the output nor the counter. -/
theorem bulkMemory_counterMode_disjoint {a n : Nat} (hn : n ≤ nb) (hout : Disjoint a 16 s.addr2 (16 * nb))
    (hcounter : Disjoint a 16 s.addr0 16) :
    (bulkMemory c .counterMode s n).readN a 16 = s.mem.readN a 16 :=
  Memory.readN_congr fun i hi => bulkMemory_read_outside c .counterMode hn
    (by rw [bulkOutLength_eq, if_neg Bool.false_ne_true]; obtain h | h := hout <;> omega)
    fun _ => by obtain h | h := hcounter <;> omega

/-- Output block `k` of counter mode, once pass `k` has written it: later passes write behind it and at the counter
(R173). -/
theorem bulkMemory_counterMode_output {k n : Nat} (hmem : s.mem.Wf) (hk : k < n) (hn : n ≤ nb)
    (hcounterOut : Disjoint s.addr0 16 s.addr2 (16 * nb)) (hxorOut : Disjoint s.addr1 (16 * nb) s.addr2 (16 * nb))
    (hxorCounter : Disjoint s.addr1 (16 * nb) s.addr0 16) :
    (bulkMemory c .counterMode s n).readN (s.addr2 + 16 * k) 16 =
      xorBytes (cipher c (ctrInc^[k] (s.mem.readN s.addr0 16))) (s.mem.readN (s.addr1 + 16 * k) 16) := by
  have hblock : Disjoint (s.addr2 + 16 * k) 16 s.addr0 16 := disjoint_block (Or.symm hcounterOut) (by omega)
  induction n, hk using Nat.le_induction with
  | base =>
    have hxor := bulkMemory_counterMode_disjoint c (n := k) (by omega) (disjoint_block hxorOut (show k < nb from hn))
      (disjoint_block hxorCounter hn)
    rw [bulkMemory_succ, bulkPass_counterMode, passMemory_output c (bulkMemory_wf c hmem k) hblock,
      bulkMemory_counter c hmem rfl, ← hxor]
    rfl
  | succ n hkn ih =>
    rw [← ih (by omega), bulkMemory_succ, bulkPass_counterMode]
    refine Memory.readN_congr fun i hi => passMemory_read_outside c _ _ (by omega) fun _ => ?_
    obtain h | h := hblock <;> omega

end

end Sys2Proof.Machine
end

section
/-! PROOF. The statements of spec/43_aes_bulk.md. -/

namespace Sys2Proof.Proofs

open Sys2Proof.Machine Sys2Proof.Statements

/-- Settles O27: the written bytes are those of the sum, and a number of `c` bytes is read back whole. -/
theorem counterIncrementAddsOne : Obligations.CounterIncrementAddsOne := by
  refine ⟨ctrIncBytes_cases.symm, fun _ => rfl, fun c p hc hp => ?_⟩
  exact ⟨ctrIncWidth_length c p (by omega) hp, beNat_ctrIncWidth_drop hp, ctrIncWidth_take hp⟩

/-- Settles O28: the passes write nowhere else, and the loop changes only memory and the block counter. -/
theorem processBlocksCompletes : Obligations.ProcessBlocksCompletes := by
  intro n x y d c s hstarted hvalid hk hfits
  refine ⟨_, exec_aesProcessBlocks hvalid hk fun h => bulkFits_iff.mpr (hfits h), ?frame, ?result, fun hlt => ?short,
    fun a hout hcounter => ?outside⟩
  case frame => rw [← finish_eq_endedOk hstarted]; rfl
  case result => rw [State.finish_result, BitVec.toNat_ofNat, Nat.mod_eq_of_lt (by omega)]
  case short =>
    rw [State.finish_mem, State.setMem_mem, Nat.div_eq_of_lt hlt, bulkMemory_zero]
  case outside =>
    rw [← bulkOutLength_eq x y d c] at hout
    exact bulkMemory_read_outside _ _ (Nat.le_refl _) hout fun hc hrange => hcounter ⟨hc, hrange⟩

/-- Settles O29: the one pass, for each of the flags. -/
theorem oneBlockBulkCommand : Obligations.OneBlockBulkCommand := by
  intro n x y d c s hstarted hvalid hk hge hlt h0 h1 h2
  rw [exec_aesProcessBlocks_oneBlock hvalid hk hge hlt h0 h1 h2, ← finish_eq_endedOk hstarted]
  rfl

/-- Settles O30: command and one-block commands make the same passes of memory. -/
theorem bulkCommandGoesBlockByBlock : Obligations.BulkCommandGoesBlockByBlock := by
  intro n x y d c s t hvalid hk hlengths hexec
  have hfits (h : 16 ≤ s.len3) : BulkFits ⟨x, y, d, c⟩ s := bulkFits_iff.mpr (hlengths h)
  rw [exec_aesProcessBlocks hvalid hk hfits] at hexec
  obtain rfl := Host.Outcome.next.inj hexec
  refine List.foldl_ext _ _ _ fun m k hmem => ?_
  have hlt := List.mem_range.mp hmem
  exact (memoryAfter_oneBlock_eq_bulkPass m hvalid hk (hfits (by omega)) hlt).symm

/-- Settles O31: every pass reads the counter that the passes before it have incremented, and an xor block that none
of them has written. -/
theorem counterModeUsesSuccessiveCounters : Obligations.CounterModeUsesSuccessiveCounters := by
  intro n s t k hmem hvalid hk h0 h1 h2 hcounterOut hxorOut hxorCounter hexec hlt
  have hfits : BulkFits .counterMode s := ⟨h0, fun _ => h1, h2⟩
  rw [exec_aesProcessBlocks hvalid hk fun _ => hfits] at hexec
  obtain rfl := Host.Outcome.next.inj hexec
  exact ⟨bulkMemory_counterMode_output _ hmem hlt (Nat.le_refl _) hcounterOut hxorOut hxorCounter,
    bulkMemory_counter _ hmem rfl _⟩

end Sys2Proof.Proofs
end

section
/-! SUPPORT. What an emission owes its port's output stream (spec/44_filter_interface.md R190 to R193): however the sink
takes it, the stream gains the bytes not yet taken, in order, and then its message end. -/

namespace Sys2Proof.Machine

/-! ### Output streams -/

@[simp] theorem streamOf_nil : streamOf [] = [] := rfl

@[simp] theorem streamOf_append (h h' : List Event) : streamOf (h ++ h') = streamOf h ++ streamOf h' :=
  List.flatMap_append

@[simp] theorem streamOf_offer (d : List Byte) (lvl : Nat) (blocking : Bool) (t : Nat) :
    streamOf [.offer d lvl blocking t] = (d.take t).map .byte := by
  simp [streamOf, Event.items]

/-- The message end of an emission of level `lvl`, if it has one (R192). -/
def endMark (lvl : Nat) : List StreamItem := if 1 ≤ lvl then [.ended lvl] else []

theorem completed_eq (h : List Event) (lvl : Nat) : ∃ es, completed h lvl = h ++ es ∧ streamOf es = endMark lvl := by
  unfold completed endMark
  split
  · exact ⟨[.ended lvl], rfl, rfl⟩
  · exact ⟨[], (List.append_nil h).symm, rfl⟩

/-! ### Emissions -/

/-- What the stream is still to gain from an emission with `off` of its bytes taken. -/
def owed (d : List Byte) (lvl off : Nat) : List StreamItem := (d.drop off).map .byte ++ endMark lvl

/-- An offer takes a first part of what is owed. -/
theorem owed_eq_taken_append (d : List Byte) (lvl off k : Nat) :
    owed d lvl off = ((d.drop off).take k).map .byte ++ owed d lvl (off + k) := by
  rw [owed, owed, ← List.append_assoc, ← List.map_append, ← List.drop_drop, List.take_append_drop]

theorem owed_length (d : List Byte) (lvl : Nat) : owed d lvl d.length = endMark lvl := by simp [owed]

/-- An emission only adds to the history, and what it adds is what is then no longer owed. -/
theorem emitLoop_appends (d : List Byte) (lvl : Nat) (blocking : Bool) (sink : Nat → Nat) (drawn : Nat) (ts : List Nat)
    (h : List Event) (off : Nat) :
    let res := emitLoop d lvl blocking sink drawn ts h off
    ∃ es, res.2.1.history = h ++ es ∧ owed d lvl off = streamOf es ++ if res.1 = .go then [] else owed d lvl res.2.2 := by
  have hoffer (t : Nat) (h : List Event) (off : Nat) (hall : off + takenOf t (d.drop off) = d.length) :
      ∃ es, completed (h ++ [.offer (d.drop off) lvl blocking (takenOf t (d.drop off))]) lvl = h ++ es ∧
        owed d lvl off = streamOf es := by
    obtain ⟨es, heq, hes⟩ := completed_eq (h ++ [.offer (d.drop off) lvl blocking (takenOf t (d.drop off))]) lvl
    refine ⟨_ :: es, by rw [heq, List.append_assoc]; rfl, ?_⟩
    rw [← List.singleton_append, streamOf_append, streamOf_offer, hes, owed_eq_taken_append, hall, owed_length]
  have hrest (t : Nat) (off : Nat) : owed d lvl off =
      streamOf [.offer (d.drop off) lvl blocking (takenOf t (d.drop off))] ++ owed d lvl (off + takenOf t (d.drop off)) := by
    rw [streamOf_offer, ← owed_eq_taken_append]
  induction ts generalizing h off with
  | nil =>
    simp only [emitLoop]
    split
    · simpa using hoffer _ h off ‹_›
    · exact ⟨_, rfl, by simpa using hrest _ off⟩
  | cons t ts ih =>
    simp only [emitLoop]
    split
    · simpa using hoffer _ h off ‹_›
    · split
      · obtain ⟨es, heq, hes⟩ := ih (h ++ [.offer (d.drop off) lvl blocking (takenOf t (d.drop off))])
          (off + takenOf t (d.drop off))
        refine ⟨_ :: es, by rw [heq, List.append_assoc, List.singleton_append], ?_⟩
        rw [hrest t off, hes, ← List.append_assoc, ← streamOf_append, List.singleton_append]
      · exact ⟨_, rfl, by simpa using hrest _ off⟩

/-- An emission whose sink takes `a` bytes of the rest next, fewer than all, stalls on that offer when it is not
blocking (R194). -/
theorem emit_nonblocking_stall {d : List Byte} {sink : Nat → Nat} {p : Port} {off a : Nat} (lvl : Nat)
    (ha : p.answers.headD (sink p.drawn) = a) (hlt : a < (d.drop off).length) :
    ∃ ts drawn, emit d lvl false sink p off =
      (.stall, ⟨p.history ++ [.offer (d.drop off) lvl false a], ts, drawn⟩, off + a) := by
  obtain ⟨h, ts, drawn⟩ := p
  have htaken : takenOf a (d.drop off) = a := Nat.min_eq_left (Nat.le_of_lt hlt)
  have hne : ¬ off + a = d.length := by
    rw [List.length_drop] at hlt
    omega
  cases ts with
  | nil =>
    obtain rfl : sink drawn = a := ha
    exact ⟨[], drawn + 1, by simp only [emit, emitLoop, htaken, if_neg hne, unfinished]; rfl⟩
  | cons t ts =>
    obtain rfl : t = a := ha
    exact ⟨ts, drawn, by simp only [emit, emitLoop, htaken, if_neg hne]; rfl⟩

/-- An emission whose sink takes the whole rest next is complete with that offer. -/
theorem emit_go {d : List Byte} {sink : Nat → Nat} {p : Port} {off : Nat} (lvl : Nat) (blocking : Bool)
    (ha : d.length - off ≤ p.answers.headD (sink p.drawn)) (hoff : off ≤ d.length) :
    (emit d lvl blocking sink p off).1 = .go ∧ (emit d lvl blocking sink p off).2.1.answers = p.answers.tail := by
  obtain ⟨h, ts, drawn⟩ := p
  cases ts with
  | nil =>
    have hall : off + takenOf (sink drawn) (d.drop off) = d.length := by
      rw [takenOf, List.length_drop, Nat.min_eq_right (show _ ≤ sink drawn from ha)]
      omega
    simp [emit, emitLoop, hall]
  | cons t ts =>
    have hloop := emitLoop_of_takesAll d lvl blocking sink drawn t ts h off hoff ha
    simp [emit, hloop]

end Sys2Proof.Machine
end

section
/-! SUPPORT. What a put makes of its input (spec/44_filter_interface.md R196, R197, R199): a unit that is fed one byte
after another gives a stream that knows nothing of puts, sinks and stalls, and each part of a put takes some of that
stream, leaving the rest to be given by the unit and the bytes that it leaves. -/

namespace Sys2Proof.Machine

open Sys2Proof.Statements

variable {U : Type}

/-! ### A unit and its pending emission -/

/-- How the parts of a unit that the skeleton uses fit together. -/
structure PutUnit.Lawful (u : PutUnit U) : Prop where
  pending_setPendOff : ∀ x off, u.pending (u.setPendOff x off) = u.pending x
  pendMel_setPendOff : ∀ x off, u.pendMel (u.setPendOff x off) = u.pendMel x
  pendOff_setPendOff : ∀ x off, u.pendOff (u.setPendOff x off) = off
  idle_setPendOff : ∀ x off, u.idle (u.setPendOff x off) = u.idle x
  endsMessage_setPendOff : ∀ x off, u.endsMessage (u.setPendOff x off) = u.endsMessage x
  complete_setPendOff : ∀ x off, u.complete (u.setPendOff x off) = u.complete x
  idle_complete : ∀ x, u.idle (u.complete x) = true
  idle_beginEnd : ∀ x mel, u.idle (u.beginEnd x mel) = false
  endsMessage_beginEnd : ∀ x mel, u.endsMessage (u.beginEnd x mel) = true

/-- What the pending emission of a unit still owes its stream. -/
def PutUnit.owes (u : PutUnit U) (x : U) : List StreamItem :=
  if u.idle x then [] else owed (u.pending x) (u.pendMel x) (u.pendOff x)

/-- The unit once its pending emission is all taken. -/
def PutUnit.settled (u : PutUnit U) (x : U) : U := if u.idle x then x else u.complete x

variable {u : PutUnit U} {x : U}

theorem PutUnit.owes_of_idle (h : u.idle x = true) : u.owes x = [] := if_pos h

theorem PutUnit.settled_of_idle (h : u.idle x = true) : u.settled x = x := if_pos h

theorem PutUnit.owes_of_pending (h : u.idle x = false) : u.owes x = owed (u.pending x) (u.pendMel x) (u.pendOff x) := by
  simp [PutUnit.owes, h]

theorem PutUnit.settled_of_pending (h : u.idle x = false) : u.settled x = u.complete x := by
  simp [PutUnit.settled, h]

theorem PutUnit.Lawful.idle_settled (hu : u.Lawful) (x : U) : u.idle (u.settled x) = true := by
  cases h : u.idle x
  · rw [u.settled_of_pending h]
    exact hu.idle_complete x
  · rwa [u.settled_of_idle h]

/-- Flushing adds to the stream what the unit then no longer owes; it settles the unit when it goes on, and otherwise
leaves it pending as it was. -/
theorem PutUnit.Lawful.flush (hu : u.Lawful) (j : PutJob) {r : PutRun U} (hi : u.idle r.unit = false) :
    (∃ es, (u.flush j r).2.port.history = r.port.history ++ es ∧
      u.owes r.unit = streamOf es ++ u.owes (u.flush j r).2.unit) ∧
    u.settled (u.flush j r).2.unit = u.settled r.unit ∧
    ((u.flush j r).1 = .go → (u.flush j r).2.unit = u.settled r.unit) ∧
    ((u.flush j r).1 ≠ .go → u.idle (u.flush j r).2.unit = false ∧
      u.endsMessage (u.flush j r).2.unit = u.endsMessage r.unit) := by
  obtain ⟨es, heq, hes⟩ := emitLoop_appends (u.pending r.unit) (u.pendMel r.unit) j.blocking j.sink r.port.drawn
    r.port.answers r.port.history (u.pendOff r.unit)
  rw [u.flush_spec, u.owes_of_pending hi, u.settled_of_pending hi, emit]
  revert heq hes
  generalize emitLoop (u.pending r.unit) (u.pendMel r.unit) j.blocking j.sink r.port.drawn r.port.answers
    r.port.history (u.pendOff r.unit) = res
  intro heq hes
  by_cases hgo : res.1 = .go
  · have hidle : u.idle (u.complete (u.setPendOff r.unit res.2.2)) = true := hu.idle_complete _
    simp only [if_pos hgo] at hes ⊢
    refine ⟨⟨es, heq, ?_⟩, ?_, fun _ => hu.complete_setPendOff _ _, fun h => absurd hgo h⟩
    · rw [u.owes_of_idle hidle, hes]
    · rw [u.settled_of_idle hidle, hu.complete_setPendOff]
  · have hidle : u.idle (u.setPendOff r.unit res.2.2) = false := (hu.idle_setPendOff _ _).trans hi
    simp only [if_neg hgo] at hes ⊢
    refine ⟨⟨es, heq, ?_⟩, ?_, fun h => absurd h hgo, fun _ => ⟨hidle, hu.endsMessage_setPendOff _ _⟩⟩
    · rw [u.owes_of_pending hidle, hu.pending_setPendOff, hu.pendMel_setPendOff, hu.pendOff_setPendOff, hes]
    · rw [u.settled_of_pending hidle, hu.complete_setPendOff]

/-! ### Feeding -/

/-- A unit and stream, with `s` before the stream. -/
def prepend (s : List StreamItem) (o : U × List StreamItem) : U × List StreamItem := (o.1, s ++ o.2)

@[simp] theorem prepend_nil (o : U × List StreamItem) : prepend [] o = o := rfl

@[simp] theorem prepend_prepend (s s' : List StreamItem) (o : U × List StreamItem) :
    prepend s (prepend s' o) = prepend (s ++ s') o := by
  simp [prepend]

/-- A settled unit fed a string of bytes: the unit then, and the stream. `feed` is what one byte does. -/
def digest (feed : U → Byte → U × List StreamItem) : U → List Byte → U × List StreamItem
  | x, [] => (x, [])
  | x, v :: l => prepend (feed x v).2 (digest feed (feed x v).1 l)

/-- The unit fed a string of bytes after what it owes. -/
def PutUnit.resume (u : PutUnit U) (feed : U → Byte → U × List StreamItem) (x : U) (l : List Byte) : U × List StreamItem :=
  prepend (u.owes x) (digest feed (u.settled x) l)

/-- The end of a message of level `mel` in a settled unit, if it has one (R195). -/
def PutUnit.ending (u : PutUnit U) (mel : Nat) (x : U) : U × List StreamItem :=
  if 1 ≤ mel then (u.settled (u.beginEnd x mel), u.owes (u.beginEnd x mel)) else (x, [])

/-- What a message `l`, to be ended with level `mel`, makes of a unit and its stream, whatever the puts that bring it
in. A pending end of message is completed alone (R197). -/
def PutUnit.ideal (u : PutUnit U) (feed : U → Byte → U × List StreamItem) (mel : Nat) (x : U) (l : List Byte) :
    U × List StreamItem :=
  if EndPending u x then (u.settled x, u.owes x)
  else prepend (u.resume feed x l).2 (u.ending mel (u.resume feed x l).1)

variable {feed : U → Byte → U × List StreamItem} {l l' : List Byte} {mel : Nat}

theorem PutUnit.resume_of_idle (h : u.idle x = true) : u.resume feed x l = digest feed x l := by
  rw [PutUnit.resume, u.owes_of_idle h, u.settled_of_idle h, prepend_nil]

theorem PutUnit.ideal_of_endPending (h : EndPending u x) :
    u.ideal feed mel x l = (u.settled x, u.owes x) := if_pos h

theorem PutUnit.ideal_of_not_endPending (h : ¬EndPending u x) :
    u.ideal feed mel x l = prepend (u.resume feed x l).2 (u.ending mel (u.resume feed x l).1) := if_neg h

theorem PutUnit.not_endPending_of_idle (h : u.idle x = true) : ¬EndPending u x := by
  simp [h]

/-! ### What a part of a put does -/

/-- The input bytes from cursor `pos` on. -/
def PutJob.rest (j : PutJob) (pos : Nat) : List Byte := j.mem.readN (j.base + pos) (j.n - pos)

/-- One part of a put after another: the cursor stays inside the input, and the history gains events whose stream the
unit fed with the bytes left would have given; that stream taken, `rest` more bytes change nothing of it. -/
def PutUnit.Advances (u : PutUnit U) (feed : U → Byte → U × List StreamItem) (j : PutJob) (r r' : PutRun U) : Prop :=
  r.pos ≤ r'.pos ∧ r'.pos ≤ j.n ∧ ∃ es, r'.port.history = r.port.history ++ es ∧
    ∀ rest, u.resume feed r.unit (j.rest r.pos ++ rest) = prepend (streamOf es) (u.resume feed r'.unit (j.rest r'.pos ++ rest))

variable {j : PutJob} {r r' r'' : PutRun U}

theorem PutUnit.Advances.refl (h : r.pos ≤ j.n) : u.Advances feed j r r :=
  ⟨Nat.le_refl _, h, [], (List.append_nil _).symm, fun _ => rfl⟩

theorem PutUnit.Advances.trans (h : u.Advances feed j r r') (h' : u.Advances feed j r' r'') : u.Advances feed j r r'' := by
  obtain ⟨hle, -, es, heq, hes⟩ := h
  obtain ⟨hle', hn, es', heq', hes'⟩ := h'
  refine ⟨hle.trans hle', hn, es ++ es', by rw [heq', heq, List.append_assoc], fun rest => ?_⟩
  rw [hes, hes', prepend_prepend, streamOf_append]

/-- Flushing a pending emission. -/
theorem PutUnit.Lawful.flush_advances (hu : u.Lawful) (hn : r.pos ≤ j.n) (hi : u.idle r.unit = false) :
    u.Advances feed j r (u.flush j r).2 := by
  obtain ⟨⟨es, heq, hes⟩, hsettled, -, -⟩ := hu.flush j hi
  refine ⟨(u.flush_pos j r).ge, by rwa [u.flush_pos], es, heq, fun rest => ?_⟩
  rw [PutUnit.resume, PutUnit.resume, u.flush_pos, hsettled, prepend_prepend, hes]

theorem PutJob.rest_n (j : PutJob) : j.rest j.n = [] := by simp [PutJob.rest, Memory.readN]

theorem PutJob.rest_of_lt {pos : Nat} (h : pos < j.n) : j.rest pos = j.byteAt pos :: j.rest (pos + 1) := by
  rw [PutJob.rest, PutJob.rest, show j.n - pos = (j.n - (pos + 1)) + 1 by omega, Memory.readN, List.range_succ_eq_map,
    List.map_cons, List.map_map]
  simp only [Memory.readN, PutJob.byteAt, Function.comp_def, Nat.add_zero, Nat.succ_eq_add_one]
  congr 1
  exact List.map_congr_left fun i _ => by rw [show j.base + pos + (i + 1) = j.base + (pos + 1) + i by omega]

/-- One more byte fed to a settled unit, what it then owes not yet offered. -/
theorem PutUnit.Advances.of_feed {y : U} (hn : r.pos < j.n) (hi : u.idle r.unit = true)
    (hfeed : feed r.unit (j.byteAt r.pos) = (u.settled y, u.owes y)) : u.Advances feed j r ⟨y, r.port, r.pos + 1⟩ := by
  refine ⟨Nat.le_succ _, hn, [], (List.append_nil _).symm, fun rest => ?_⟩
  rw [u.resume_of_idle hi, j.rest_of_lt hn, List.cons_append, digest, hfeed]
  rfl

/-! ### A whole put -/

/-- How a put ends that does not begin with a pending message end. When it goes on, it has read all its input and made
of its unit what its message makes of it; when it does not, or ends no message, what it has added to the stream and what
is still to come make up the stream of a message that goes on with `rest`. -/
structure PutUnit.Outcome (u : PutUnit U) (feed : U → Byte → U × List StreamItem) (j : PutJob) (r : PutRun U) (f : Flow)
    (r' : PutRun U) : Prop where
  pos : r.pos ≤ r'.pos ∧ r'.pos ≤ j.n
  goes : f = .go → u.idle r'.unit = true ∧ r'.pos = j.n ∧ ∃ es, r'.port.history = r.port.history ++ es ∧
    u.ideal feed j.mel r.unit (j.rest r.pos) = (r'.unit, streamOf es)
  more : f ≠ .go ∨ j.mel = 0 → ∀ mel rest, j.mel = 0 ∨ (j.mel = mel ∧ rest = []) →
    ∃ es, r'.port.history = r.port.history ++ es ∧
      u.ideal feed mel r.unit (j.rest r.pos ++ rest) = prepend (streamOf es) (u.ideal feed mel r'.unit (j.rest r'.pos ++ rest))

theorem PutUnit.ideal_of_resume {y : U} {s : List StreamItem} (hx : ¬EndPending u x) (hy : ¬EndPending u y)
    (h : u.resume feed x l = prepend s (u.resume feed y l')) :
    u.ideal feed mel x l = prepend s (u.ideal feed mel y l') := by
  rw [u.ideal_of_not_endPending hx, u.ideal_of_not_endPending hy, h, prepend_prepend]
  rfl

/-- A settled unit and no more input. -/
theorem PutUnit.ideal_nil (h : u.idle x = true) : u.ideal feed mel x [] = u.ending mel x := by
  rw [u.ideal_of_not_endPending (u.not_endPending_of_idle h), u.resume_of_idle h]
  rfl

theorem PutUnit.Advances.outcome {f : Flow} (h : u.Advances feed j r r') (hr : ¬EndPending u r.unit)
    (hr' : ¬EndPending u r'.unit) (ho : u.Outcome feed j r' f r'') : u.Outcome feed j r f r'' := by
  obtain ⟨hle, -, es, heq, hes⟩ := h
  have hideal (mel : Nat) (rest : List Byte) := u.ideal_of_resume (mel := mel) hr hr' (hes rest)
  refine ⟨⟨hle.trans ho.pos.1, ho.pos.2⟩, fun hgo => ?goes, fun hmore mel rest hmel => ?more⟩
  case goes =>
    obtain ⟨hidle, hpos, es', heq', hes'⟩ := ho.goes hgo
    refine ⟨hidle, hpos, es ++ es', by rw [heq', heq, List.append_assoc], ?_⟩
    have := hideal j.mel []
    rw [List.append_nil, List.append_nil, hes'] at this
    rw [this, streamOf_append]
    rfl
  case more =>
    obtain ⟨es', heq', hes'⟩ := ho.more hmore mel rest hmel
    exact ⟨es ++ es', by rw [heq', heq, List.append_assoc], by rw [hideal, hes', prepend_prepend, streamOf_append]⟩

/-- A part of a put that stops before the end of the message. -/
theorem PutUnit.Advances.outcome_stopped {f : Flow} (h : u.Advances feed j r r') (hr : ¬EndPending u r.unit)
    (hr' : ¬EndPending u r'.unit) (hf : f ≠ .go) : u.Outcome feed j r f r' := by
  refine h.outcome hr hr' ⟨⟨Nat.le_refl _, h.2.1⟩, fun hgo => absurd hgo hf, fun _ mel rest _ => ?_⟩
  exact ⟨[], (List.append_nil _).symm, rfl⟩

/-- The end of a message in a settled unit that has read all its input. -/
theorem PutUnit.Lawful.messageEnd_outcome (hu : u.Lawful) (hi : u.idle r.unit = true) (hpos : r.pos = j.n) :
    u.Outcome feed j r (u.messageEnd j r).1 (u.messageEnd j r).2 := by
  have hrest : j.rest r.pos = [] := by rw [hpos, j.rest_n]
  by_cases hmel : 1 ≤ j.mel
  · have hpending := hu.idle_beginEnd r.unit j.mel
    obtain ⟨⟨es, heq, hes⟩, hsettled, hgo, hstop⟩ := hu.flush j (r := { r with unit := u.beginEnd r.unit j.mel }) hpending
    have hposEnd := u.flush_pos j { r with unit := u.beginEnd r.unit j.mel }
    rw [PutUnit.messageEnd, if_pos hmel]
    revert heq hes hsettled hgo hstop hposEnd
    generalize u.flush j { r with unit := u.beginEnd r.unit j.mel } = res
    intro heq hes hsettled hgo hstop hposEnd
    have hending : u.ending j.mel r.unit = prepend (streamOf es) (u.settled res.2.unit, u.owes res.2.unit) := by
      rw [PutUnit.ending, if_pos hmel, hsettled, hes]
      rfl
    refine ⟨⟨hposEnd.ge, hposEnd.le.trans hpos.le⟩, fun h => ?goes, fun h mel rest hm => ?more⟩
    case goes =>
      have hidle : u.idle res.2.unit = true := hgo h ▸ hu.idle_settled _
      refine ⟨hidle, hposEnd.trans hpos, es, heq, ?_⟩
      rw [hrest, u.ideal_nil hi, hending, u.settled_of_idle hidle, u.owes_of_idle hidle, prepend, List.append_nil]
    case more =>
      obtain ⟨rfl, rfl⟩ := hm.resolve_left (by omega)
      obtain ⟨hidle, hends⟩ := hstop (h.resolve_right (by omega))
      refine ⟨es, heq, ?_⟩
      rw [hrest, List.nil_append, u.ideal_nil hi, hending,
        u.ideal_of_endPending ⟨hidle, hends.trans (hu.endsMessage_beginEnd _ _)⟩]
  · rw [PutUnit.messageEnd, if_neg hmel]
    refine ⟨⟨Nat.le_refl _, hpos.le⟩, fun _ => ⟨hi, hpos, [], (List.append_nil _).symm, ?_⟩, fun _ mel rest _ => ?_⟩
    · rw [hrest, u.ideal_nil hi, PutUnit.ending, if_neg hmel]
      rfl
    · exact ⟨[], (List.append_nil _).symm, rfl⟩

/-- How the body of a unit runs on a settled unit that `I` holds of: it takes its part of the stream, it reads all its
input when it goes on, and it leaves no message end pending. -/
structure PutUnit.Streams (u : PutUnit U) (body : PutJob → PutRun U → Flow × PutRun U)
    (feed : U → Byte → U × List StreamItem) (I : U → Prop) : Prop where
  lawful : u.Lawful
  setPendOff : ∀ x off, I x → I (u.setPendOff x off)
  complete : ∀ x, I x → I (u.complete x)
  beginEnd : ∀ x mel, I x → I (u.beginEnd x mel)
  body_keeps : ∀ j r, I r.unit → I (body j r).2.unit
  body_spec : ∀ j r, I r.unit → u.idle r.unit = true → r.pos ≤ j.n →
    u.Advances feed j r (body j r).2 ∧ ¬EndPending u (body j r).2.unit ∧
      ((body j r).1 = .go → u.idle (body j r).2.unit = true ∧ (body j r).2.pos = j.n)

variable {body : PutJob → PutRun U → Flow × PutRun U} {I : U → Prop}

theorem PutUnit.Streams.process_outcome (hs : u.Streams body feed I) (hI : I r.unit) (hi : u.idle r.unit = true)
    (hn : r.pos ≤ j.n) : u.Outcome feed j r (u.process body j r).1 (u.process body j r).2 := by
  have hr := u.not_endPending_of_idle hi
  obtain ⟨hadv, hdata, hgo⟩ := hs.body_spec j r hI hi hn
  rw [PutUnit.process]
  rcases hres : body j r with ⟨f, r'⟩
  rw [hres] at hadv hgo hdata
  cases f with
  | go =>
    obtain ⟨hidle, hpos⟩ := hgo rfl
    exact hadv.outcome hr hdata (hs.lawful.messageEnd_outcome hidle hpos)
  | stall => exact hadv.outcome_stopped hr hdata nofun
  | wait => exact hadv.outcome_stopped hr hdata nofun

/-- What `I` says is kept by flushing. -/
theorem PutUnit.Streams.flush_keeps (hs : u.Streams body feed I) (hI : I r.unit) : I (u.flush j r).2.unit := by
  obtain ⟨off, -, ⟨-, heq⟩ | ⟨-, heq⟩⟩ := u.flush_unit j r
  · rw [heq]
    exact hs.complete _ (hs.setPendOff _ _ hI)
  · rw [heq]
    exact hs.setPendOff _ _ hI

theorem PutUnit.run_of_endPending (h : EndPending u r.unit) : u.run body j r = u.flush j r := by
  obtain ⟨hi, hends⟩ := h
  simp only [PutUnit.run, hi, hends, if_true, Bool.false_eq_true, if_false]
  rcases u.flush j r with ⟨f, r'⟩
  cases f <;> rfl

theorem PutUnit.Streams.run_outcome (hs : u.Streams body feed I) (hI : I r.unit) (hr : ¬EndPending u r.unit)
    (hn : r.pos ≤ j.n) : u.Outcome feed j r (u.run body j r).1 (u.run body j r).2 := by
  cases hi : u.idle r.unit with
  | true =>
    rw [PutUnit.run, if_pos hi]
    exact hs.process_outcome hI hi hn
  | false =>
    have hends : u.endsMessage r.unit = false := by simpa [hi] using hr
    have hadv := hs.lawful.flush_advances (feed := feed) hn hi
    have hkeeps := hs.flush_keeps (j := j) hI
    obtain ⟨-, -, hgo, hstop⟩ := hs.lawful.flush j hi
    have hpos := u.flush_pos j r
    simp only [PutUnit.run, hi, hends, Bool.false_eq_true, if_false]
    rcases hres : u.flush j r with ⟨f, r'⟩
    rw [hres] at hadv hkeeps hgo hstop hpos
    have hstopped (hne : f ≠ .go) : ¬EndPending u r'.unit := fun h => by
      exact absurd (h.2.symm.trans ((hstop hne).2.trans hends)) Bool.noConfusion
    cases f with
    | go =>
      have hidle : u.idle r'.unit = true := hgo rfl ▸ hs.lawful.idle_settled _
      exact hadv.outcome hr (u.not_endPending_of_idle hidle) (hs.process_outcome hkeeps hidle (hpos.le.trans hn))
    | stall => exact hadv.outcome_stopped hr (hstopped nofun) nofun
    | wait => exact hadv.outcome_stopped hr (hstopped nofun) nofun

theorem PutUnit.Streams.run_keeps (hs : u.Streams body feed I) (hI : I r.unit) : I (u.run body j r).2.unit :=
  u.run_keeps body j (P := fun r => I r.unit) (Q := fun r => I r.unit) (fun _ h => h) (fun _ h _ => h)
    (fun r h => ⟨hs.body_keeps j r h, fun _ => hs.body_keeps j r h⟩)
    (fun r h => by
      unfold PutUnit.messageEnd
      split
      · exact hs.flush_keeps (hs.beginEnd _ _ h)
      · exact h)
    (fun _ h _ => ⟨hs.flush_keeps h, fun _ => hs.flush_keeps h⟩) r hI

/-- A put that goes through: its unit is settled, it has read all its input, or none if it has completed a pending
message end, and its message has made of unit and stream what it makes of them. -/
theorem PutUnit.Streams.run_go (hs : u.Streams body feed I) (hI : I r.unit) (hn : r.pos ≤ j.n)
    (hgo : (u.run body j r).1 = .go) :
    u.idle (u.run body j r).2.unit = true ∧ (u.run body j r).2.pos = (if EndPending u r.unit then r.pos else j.n) ∧
      ∃ es, (u.run body j r).2.port.history = r.port.history ++ es ∧
        u.ideal feed j.mel r.unit (j.rest r.pos) = ((u.run body j r).2.unit, streamOf es) := by
  by_cases hr : EndPending u r.unit
  · rw [u.run_of_endPending hr] at hgo ⊢
    obtain ⟨⟨es, heq, hes⟩, -, hunit, -⟩ := hs.lawful.flush j hr.1
    have hidle : u.idle (u.flush j r).2.unit = true := hunit hgo ▸ hs.lawful.idle_settled _
    refine ⟨hidle, by rw [if_pos hr, u.flush_pos], es, heq, ?_⟩
    rw [u.ideal_of_endPending hr, hunit hgo, hes, u.owes_of_idle hidle, List.append_nil]
  · rw [if_neg hr]
    exact (hs.run_outcome hI hr hn).goes hgo

end Sys2Proof.Machine
end

section
/-! SUPPORT. Puts of a message from a memory that holds it (spec/44_filter_interface.md R197, R199): each put takes its
part of the stream of the message, so that any series of them that ends it gives that stream and leaves that unit. -/

namespace Sys2Proof.Machine

open Sys2Proof.Statements

variable {U : Type} {u : PutUnit U} {body : PutJob → PutRun U → Flow × PutRun U}
  {feed : U → Byte → U × List StreamItem} {I : U → Prop}

/-- The bytes left of an input are its last ones. -/
theorem PutJob.rest_eq_drop (j : PutJob) (pos : Nat) : j.rest pos = (j.mem.readN j.base j.n).drop pos := by
  refine List.ext_getElem? fun i => ?_
  rw [List.getElem?_drop]
  by_cases hi : pos + i < j.n
  · rw [PutJob.rest, Memory.readN_getElem? _ _ _ _ (by omega), Memory.readN_getElem? _ _ _ _ hi, Nat.add_assoc]
  · rw [List.getElem?_eq_none (by rw [PutJob.rest, Memory.readN_length]; omega),
      List.getElem?_eq_none (by rw [Memory.readN_length]; omega)]

/-- The put of the message `l` that `putMessage` runs. -/
def messageJob (l : List Byte) (blocking : Bool) (mel : Nat) (sink : Nat → Nat) : PutJob :=
  ⟨Memory.writeN [] 0 l, 0, l.length, blocking, mel, sink⟩

/-- Where it starts. -/
def messageStart (x : U) (answers : List Nat) : PutRun U := ⟨x, ⟨[], answers, 0⟩, 0⟩

theorem messageJob_rest (l : List Byte) (blocking : Bool) (mel : Nat) (sink : Nat → Nat) (pos : Nat) :
    (messageJob l blocking mel sink).rest pos = l.drop pos := by
  rw [PutJob.rest_eq_drop]
  exact congrArg (List.drop pos) (Memory.readN_writeN [] 0 l ⟨List.Pairwise.nil, nofun⟩)

section
variable {x y : U} {l : List Byte} {blocking : Bool} {m mel consumed : Nat} {sink : Nat → Nat} {answers : List Nat}
  {f : Flow} {stream : List StreamItem}

theorem putMessage_eq_iff : putMessage u body x l blocking m sink answers = (f, y, consumed, stream) ↔
    (u.run body (messageJob l blocking m sink) (messageStart x answers)).1 = f ∧
    (u.run body (messageJob l blocking m sink) (messageStart x answers)).2.unit = y ∧
    (u.run body (messageJob l blocking m sink) (messageStart x answers)).2.pos = consumed ∧
    streamOf (u.run body (messageJob l blocking m sink) (messageStart x answers)).2.port.history = stream := by
  simp only [putMessage, messageJob, messageStart, Prod.mk.injEq]

/-- A put that goes through makes of unit and stream what its message makes of them. -/
theorem PutUnit.Streams.putMessage_go (hs : u.Streams body feed I) (hI : I x)
    (h : putMessage u body x l blocking m sink answers = (.go, y, consumed, stream)) :
    u.ideal feed m x l = (y, stream) ∧ consumed = if EndPending u x then 0 else l.length := by
  obtain ⟨hgo, rfl, rfl, rfl⟩ := putMessage_eq_iff.mp h
  obtain ⟨-, hpos, es, heq, hes⟩ := hs.run_go (r := messageStart x answers) hI (Nat.zero_le _) hgo
  have hrest : (messageJob l blocking m sink).rest (messageStart x answers).pos = l := messageJob_rest ..
  rw [hrest] at hes
  exact ⟨by rw [heq]; exact hes, hpos⟩

/-- A put of a first piece that stalls, waits or ends no message leaves the rest of the message's stream to the unit
that it leaves and the bytes that it has not consumed. -/
theorem PutUnit.Streams.putMessage_more (hs : u.Streams body feed I) (hI : I x) {piece rest : List Byte}
    (hm : m = 0 ∨ (m = mel ∧ rest = []))
    (h : putMessage u body x piece blocking m sink answers = (f, y, consumed, stream))
    (hf : f ≠ .go ∨ (m = 0 ∧ ¬EndPending u x)) :
    I y ∧ u.ideal feed mel x (piece ++ rest) = prepend stream (u.ideal feed mel y ((piece ++ rest).drop consumed)) := by
  obtain ⟨rfl, rfl, rfl, rfl⟩ := putMessage_eq_iff.mp h
  have hrest := messageJob_rest piece blocking m sink
  refine ⟨hs.run_keeps (r := messageStart x answers) hI, ?_⟩
  by_cases hx : EndPending u x
  · rw [u.run_of_endPending (r := messageStart x answers) hx] at hf ⊢
    obtain ⟨⟨es, heq, hes⟩, hsettled, -, hstop⟩ :=
      hs.lawful.flush (messageJob piece blocking m sink) (r := messageStart x answers) hx.1
    obtain ⟨hidle, hends⟩ := hstop (hf.resolve_right fun h => h.2 hx)
    rw [u.ideal_of_endPending hx, u.ideal_of_endPending ⟨hidle, hends.trans hx.2⟩, hsettled, heq]
    exact congrArg (Prod.mk _) hes
  · have hout := hs.run_outcome (j := messageJob piece blocking m sink) (r := messageStart x answers) hI hx (Nat.zero_le _)
    obtain ⟨-, hpos⟩ := hout.pos
    obtain ⟨es, heq, hes⟩ := hout.more (hf.imp_right And.left) mel rest hm
    rw [hrest, hrest] at hes
    rw [List.drop_append_of_le_length hpos, heq]
    exact hes

end

/-- However a message is brought in, its puts give its stream and leave its unit. -/
theorem PutUnit.Streams.session (hs : u.Streams body feed I) {mel : Nat} {x y : U} {l : List Byte}
    {stream : List StreamItem} (h : Session u body mel x l y stream) (hI : I x) : u.ideal feed mel x l = (y, stream) := by
  induction h with
  | last x y l blocking m sink answers consumed stream hm hput =>
    obtain ⟨hideal, -⟩ := hs.putMessage_go hI hput
    rcases hm with rfl | hx
    · exact hideal
    · rwa [u.ideal_of_endPending hx] at hideal ⊢
  | more x y z piece rest blocking m sink answers f consumed stream stream' hm hput hf _ ih =>
    obtain ⟨hIy, hideal⟩ := hs.putMessage_more hI hm hput hf
    rw [hideal, ih hIy, prepend]

/-- Two sessions of one message end alike. -/
theorem PutUnit.Streams.session_unique (hs : u.Streams body feed I) {mel : Nat} {x y z : U} {l : List Byte}
    {p q : List StreamItem} (hI : I x) (hp : Session u body mel x l y p) (hq : Session u body mel x l z q) :
    y = z ∧ p = q :=
  Prod.mk.inj ((hs.session hp hI).symm.trans (hs.session hq hI))

/-- Two puts of one message that both go through are alike, whatever their sinks. -/
theorem PutUnit.Streams.putMessage_unique (hs : u.Streams body feed I) {x : U} {l : List Byte} {blocking : Bool}
    {mel : Nat} {sa sb : Nat → Nat} {as bs : List Nat} (hI : I x)
    (ha : (putMessage u body x l blocking mel sa as).1 = .go) (hb : (putMessage u body x l blocking mel sb bs).1 = .go) :
    putMessage u body x l blocking mel sa as = putMessage u body x l blocking mel sb bs := by
  rcases hpa : putMessage u body x l blocking mel sa as with ⟨f, y, consumed, stream⟩
  rcases hpb : putMessage u body x l blocking mel sb bs with ⟨f', y', consumed', stream'⟩
  rw [hpa] at ha
  rw [hpb] at hb
  subst ha hb
  obtain ⟨hideal, hconsumed⟩ := hs.putMessage_go hI hpa
  obtain ⟨hideal', hconsumed'⟩ := hs.putMessage_go hI hpb
  obtain ⟨rfl, rfl⟩ := Prod.mk.inj (hideal.symm.trans hideal')
  rw [hconsumed, hconsumed']

end Sys2Proof.Machine
end

section
/-! SUPPORT. The two codecs as units that eat one input byte after another (spec/45_basen_encoder.md R212,
spec/46_basen_decoder.md R232): a byte leaves the unit idle, or fills its group, which is then pending and flushed. -/

namespace Sys2Proof.Machine

open Sys2Proof.Statements

/-! ### Eating bytes -/

section
variable {U : Type} {u : PutUnit U} {loop : PutJob → Nat → PutRun U → Flow × PutRun U} {eat : U → Byte → U}

/-- The run with the next input byte eaten. -/
def eatNext (eat : U → Byte → U) (j : PutJob) (r : PutRun U) : PutRun U :=
  ⟨eat r.unit (j.byteAt r.pos), r.port, r.pos + 1⟩

@[simp] theorem eatNext_unit (j : PutJob) (r : PutRun U) : (eatNext eat j r).unit = eat r.unit (j.byteAt r.pos) := rfl
@[simp] theorem eatNext_port (j : PutJob) (r : PutRun U) : (eatNext eat j r).port = r.port := rfl
@[simp] theorem eatNext_pos (j : PutJob) (r : PutRun U) : (eatNext eat j r).pos = r.pos + 1 := rfl

/-- A loop over the next input bytes that flushes the unit whenever a byte leaves it pending. -/
structure PutUnit.Eats (u : PutUnit U) (loop : PutJob → Nat → PutRun U → Flow × PutRun U) (eat : U → Byte → U) : Prop where
  lawful : u.Lawful
  data : ∀ x v, u.idle x = true → u.endsMessage (eat x v) = false
  zero : ∀ j r, loop j 0 r = (.go, r)
  room : ∀ j count r, u.idle r.unit = true → u.idle (eatNext eat j r).unit = true →
    loop j (count + 1) r = loop j count (eatNext eat j r)
  flushed : ∀ j count r r', u.idle r.unit = true → u.idle (eatNext eat j r).unit = false →
    u.flush j (eatNext eat j r) = (.go, r') → loop j (count + 1) r = loop j count r'
  unflushed : ∀ j count r f r', u.idle r.unit = true → u.idle (eatNext eat j r).unit = false →
    u.flush j (eatNext eat j r) = (f, r') → f ≠ .go → loop j (count + 1) r = (f, r')

/-- The induction over the input that such a loop makes: no byte left, a byte with room, a byte after which the unit is
flushed, and one after which the loop stops there. -/
theorem PutUnit.Eats.induct (he : u.Eats loop eat) {j : PutJob} {M : Nat → PutRun U → Flow × PutRun U → Prop}
    (zero : ∀ r, u.idle r.unit = true → M 0 r (.go, r))
    (room : ∀ count r res, u.idle r.unit = true → u.idle (eatNext eat j r).unit = true →
      M count (eatNext eat j r) res → M (count + 1) r res)
    (flushed : ∀ count r r' res, u.idle r.unit = true → u.idle (eatNext eat j r).unit = false →
      u.flush j (eatNext eat j r) = (.go, r') → u.idle r'.unit = true → M count r' res → M (count + 1) r res)
    (unflushed : ∀ count r f r', u.idle r.unit = true → u.idle (eatNext eat j r).unit = false →
      u.flush j (eatNext eat j r) = (f, r') → f ≠ .go → M (count + 1) r (f, r'))
    (count : Nat) (r : PutRun U) (hi : u.idle r.unit = true) : M count r (loop j count r) := by
  induction count generalizing r with
  | zero =>
    rw [he.zero]
    exact zero r hi
  | succ count ih =>
    cases hnext : u.idle (eatNext eat j r).unit with
    | true =>
      rw [he.room j count r hi hnext]
      exact room count r _ hi hnext (ih _ hnext)
    | false =>
      obtain ⟨-, -, hgo, -⟩ := he.lawful.flush j hnext
      rcases hres : u.flush j (eatNext eat j r) with ⟨f, r'⟩
      by_cases hf : f = .go
      · subst hf
        have hidle : u.idle r'.unit = true := by
          have hunit := hgo (congrArg Prod.fst hres)
          rw [hres] at hunit
          exact hunit ▸ he.lawful.idle_settled _
        rw [he.flushed j count r r' hi hnext hres]
        exact flushed count r r' _ hi hnext hres hidle (ih r' hidle)
      · rw [he.unflushed j count r f r' hi hnext hres hf]
        exact unflushed count r f r' hi hnext hres hf

/-- What one byte does to a settled unit and its stream. -/
def PutUnit.feedOf (u : PutUnit U) (eat : U → Byte → U) (x : U) (v : Byte) : U × List StreamItem :=
  (u.settled (eat x v), u.owes (eat x v))

/-- Such a loop takes the stream of the bytes it reads. -/
theorem PutUnit.Eats.loop_spec (he : u.Eats loop eat) (j : PutJob) (count : Nat) (r : PutRun U)
    (hi : u.idle r.unit = true) (hn : r.pos + count = j.n) :
    u.Advances (u.feedOf eat) j r (loop j count r).2 ∧ ¬EndPending u (loop j count r).2.unit ∧
      ((loop j count r).1 = .go → u.idle (loop j count r).2.unit = true ∧ (loop j count r).2.pos = j.n) := by
  have hnext {count : Nat} {r : PutRun U} (hi : u.idle r.unit = true) (hn : r.pos + (count + 1) = j.n) :
      u.Advances (u.feedOf eat) j r (eatNext eat j r) := .of_feed (by omega) hi rfl
  revert hn
  refine he.induct (j := j) (M := fun count r res => r.pos + count = j.n → u.Advances (u.feedOf eat) j r res.2 ∧
    ¬EndPending u res.2.unit ∧ (res.1 = .go → u.idle res.2.unit = true ∧ res.2.pos = j.n))
    (fun r hi hn => ?zero) (fun count r res hi hidle ih hn => ?room) (fun count r r' res hi hpending hres _ ih hn => ?flushed)
    (fun count r f r' hi hpending hres hf hn => ?unflushed) count r hi
  case zero => exact ⟨.refl (Nat.le_of_eq hn), u.not_endPending_of_idle hi, fun _ => ⟨hi, hn⟩⟩
  case room =>
    obtain ⟨hadv, hdata, hgo⟩ := ih (by rw [eatNext_pos]; omega)
    exact ⟨(hnext hi hn).trans hadv, hdata, hgo⟩
  case flushed =>
    have hflush := he.lawful.flush_advances (feed := u.feedOf eat) (j := j) (hnext hi hn).2.1 hpending
    have hpos := u.flush_pos j (eatNext eat j r)
    rw [hres] at hflush hpos
    obtain ⟨hadv, hdata, hgo⟩ := ih (by rw [hpos, eatNext_pos]; omega)
    exact ⟨((hnext hi hn).trans hflush).trans hadv, hdata, hgo⟩
  case unflushed =>
    have hflush := he.lawful.flush_advances (feed := u.feedOf eat) (j := j) (hnext hi hn).2.1 hpending
    obtain ⟨-, -, -, hstop⟩ := he.lawful.flush j hpending
    rw [hres] at hflush hstop
    refine ⟨(hnext hi hn).trans hflush, fun h => ?_, fun h => absurd h hf⟩
    exact absurd (h.2.symm.trans ((hstop hf).2.trans (he.data _ _ hi))) Bool.noConfusion

/-- A codec's put takes the stream of its input. -/
theorem PutUnit.Eats.streams (he : u.Eats loop eat) :
    u.Streams (fun j r => loop j (j.n - r.pos) r) (u.feedOf eat) (fun _ => True) where
  lawful := he.lawful
  setPendOff _ _ h := h
  complete _ h := h
  beginEnd _ _ h := h
  body_keeps _ _ h := h
  body_spec j r _ hi hn := he.loop_spec j (j.n - r.pos) r hi (by omega)

end

/-! ### The encoder -/

/-- The encoder with one more byte packed, its block pending if that is full. -/
def Encoder.eat (e : Encoder) (v : Byte) : Encoder :=
  if (packByte e v).bytePos = (packByte e v).obs then (packByte e v).openBlock else packByte e v

theorem encoderUnit_lawful : encoderUnit.Lawful where
  pending_setPendOff _ _ := rfl
  pendMel_setPendOff _ _ := rfl
  pendOff_setPendOff _ _ := rfl
  idle_setPendOff _ _ := rfl
  endsMessage_setPendOff _ _ := rfl
  complete_setPendOff _ _ := rfl
  idle_complete _ := rfl
  idle_beginEnd _ _ := rfl
  endsMessage_beginEnd _ _ := rfl

@[simp] theorem packByte_fsm (e : Encoder) (v : Byte) : (packByte e v).fsm = e.fsm := by
  obtain ⟨_, _, _, h⟩ := packBits_frame ([7, 6, 5, 4, 3, 2, 1, 0].map v.getLsbD) e
  rw [packByte_eq_packBits, h]

/-- Whether a byte fills the block of an idle encoder shows in the phase it leaves. -/
theorem Encoder.eat_cases {e : Encoder} (hi : e.fsm = .idle) (v : Byte) :
    ((packByte e v).bytePos = (packByte e v).obs ∧ e.eat v = (packByte e v).openBlock ∧ (e.eat v).fsm = .pendBlock) ∨
      ((packByte e v).bytePos ≠ (packByte e v).obs ∧ e.eat v = packByte e v ∧ (e.eat v).fsm = .idle) := by
  unfold Encoder.eat
  split
  · exact .inl ⟨‹_›, rfl, rfl⟩
  · exact .inr ⟨‹_›, rfl, by simpa using hi⟩

section
variable {j : PutJob} {r : PutRun Encoder}

/-- A byte with room in the block of an idle encoder. -/
theorem eatNext_eq_packNext (hi : encoderUnit.idle r.unit = true)
    (hidle : encoderUnit.idle (eatNext Encoder.eat j r).unit = true) :
    (packNext j r).unit.bytePos ≠ (packNext j r).unit.obs ∧ packNext j r = eatNext Encoder.eat j r := by
  rw [encoderUnit_idle_iff] at hi hidle
  rw [eatNext_unit] at hidle
  rcases Encoder.eat_cases hi (j.byteAt r.pos) with ⟨-, -, h⟩ | ⟨hroom, heq, -⟩
  · exact absurd (h.symm.trans hidle) CodecFsm.noConfusion
  · rw [packNext_unit, eatNext, heq, packNext]
    exact ⟨hroom, rfl⟩

/-- A byte that fills it. -/
theorem eatNext_eq_openFull (hi : encoderUnit.idle r.unit = true)
    (hpending : encoderUnit.idle (eatNext Encoder.eat j r).unit = false) :
    (packNext j r).unit.bytePos = (packNext j r).unit.obs ∧ openFull (packNext j r) = eatNext Encoder.eat j r := by
  rw [encoderUnit_idle_iff] at hi
  rw [encoderUnit_idle_eq_false_iff, eatNext_unit] at hpending
  rcases Encoder.eat_cases hi (j.byteAt r.pos) with ⟨hfull, heq, -⟩ | ⟨-, -, h⟩
  · rw [openFull, packNext_unit, packNext_port, packNext_pos, eatNext, heq]
    exact ⟨hfull, rfl⟩
  · exact absurd h hpending

end

theorem encoderUnit_eats : encoderUnit.Eats encoderLoop Encoder.eat where
  lawful := encoderUnit_lawful
  data e v hi := by
    rcases Encoder.eat_cases ((encoderUnit_idle_iff e).mp hi) v with ⟨-, -, h⟩ | ⟨-, -, h⟩ <;> simp [encoderUnit, h]
  zero _ _ := rfl
  room j count r hi hidle := by
    obtain ⟨hroom, heq⟩ := eatNext_eq_packNext hi hidle
    rw [encoderLoop_of_room hroom, heq]
  flushed j count r r' hi hpending hres := by
    obtain ⟨hfull, heq⟩ := eatNext_eq_openFull hi hpending
    exact encoderLoop_of_flushed hfull (heq ▸ hres)
  unflushed j count r f r' hi hpending hres hf := by
    obtain ⟨hfull, heq⟩ := eatNext_eq_openFull hi hpending
    exact encoderLoop_of_unflushed hfull (heq ▸ hres) hf

/-- What one input byte does to an idle encoder and its stream. -/
abbrev encoderFeed : Encoder → Byte → Encoder × List StreamItem := encoderUnit.feedOf Encoder.eat

theorem encoderUnit_streams : encoderUnit.Streams encoderBody encoderFeed fun _ => True := encoderUnit_eats.streams

/-! ### The decoder -/

/-- The decoder with the symbol of one more byte accumulated, if it has one, its group pending if that is full. -/
def Decoder.eat (d : Decoder) (c : Byte) : Decoder :=
  if d.skips (entry d.lookup c.toNat 0xFF#8) then d
  else if (accumulate d (entry d.lookup c.toNat 0xFF#8)).bytePos = (accumulate d (entry d.lookup c.toNat 0xFF#8)).obs then
    (accumulate d (entry d.lookup c.toNat 0xFF#8)).openBlock
  else accumulate d (entry d.lookup c.toNat 0xFF#8)

theorem decoderUnit_lawful : decoderUnit.Lawful where
  pending_setPendOff _ _ := rfl
  pendMel_setPendOff _ _ := rfl
  pendOff_setPendOff _ _ := rfl
  idle_setPendOff _ _ := rfl
  endsMessage_setPendOff _ _ := rfl
  complete_setPendOff _ _ := rfl
  idle_complete _ := rfl
  idle_beginEnd _ _ := rfl
  endsMessage_beginEnd _ _ := rfl

@[simp] theorem accumulate_fsm (d : Decoder) (v : Byte) : (accumulate d v).fsm = d.fsm := by
  obtain ⟨_, _, _, h⟩ := accumulateBits_frame ((List.range d.b).reverse.map v.getLsbD) d
  rw [accumulate_eq_accumulateBits, h]

/-- A byte is skipped, or its symbol fills the group of an idle decoder, or leaves room in it. -/
theorem Decoder.eat_cases {d : Decoder} (hi : d.fsm = .idle) (c : Byte) {v : Byte} (hv : v = entry d.lookup c.toNat 0xFF#8) :
    (d.skips v = true ∧ d.eat c = d ∧ (d.eat c).fsm = .idle) ∨
      (d.skips v = false ∧ (accumulate d v).bytePos = (accumulate d v).obs ∧ d.eat c = (accumulate d v).openBlock ∧
        (d.eat c).fsm = .pendBlock) ∨
      (d.skips v = false ∧ (accumulate d v).bytePos ≠ (accumulate d v).obs ∧ d.eat c = accumulate d v ∧
        (d.eat c).fsm = .idle) := by
  subst hv
  unfold Decoder.eat
  split
  · exact .inl ⟨‹_›, rfl, hi⟩
  · rename_i hs
    rw [Bool.not_eq_true] at hs
    split
    · exact .inr (.inl ⟨hs, ‹_›, rfl, rfl⟩)
    · exact .inr (.inr ⟨hs, ‹_›, rfl, by simpa using hi⟩)

section
variable {j : PutJob} {r : PutRun Decoder}

/-- A byte that is skipped, or with room in the group of an idle decoder. -/
theorem eatNext_eq_skipNext_or_decodeNext (hi : decoderUnit.idle r.unit = true)
    (hidle : decoderUnit.idle (eatNext Decoder.eat j r).unit = true) :
    (r.unit.skips (nextValue j r) = true ∧ skipNext r = eatNext Decoder.eat j r) ∨
      (r.unit.skips (nextValue j r) = false ∧ (decodeNext j r).unit.bytePos ≠ (decodeNext j r).unit.obs ∧
        decodeNext j r = eatNext Decoder.eat j r) := by
  rw [decoderUnit_idle_iff] at hi hidle
  rw [eatNext_unit] at hidle
  rcases Decoder.eat_cases hi (j.byteAt r.pos) (v := nextValue j r) rfl with
    ⟨hs, heq, -⟩ | ⟨-, -, -, h⟩ | ⟨hs, hroom, heq, -⟩
  · rw [skipNext, eatNext, heq]
    exact .inl ⟨hs, rfl⟩
  · exact absurd (h.symm.trans hidle) CodecFsm.noConfusion
  · rw [decodeNext_unit, eatNext, heq, decodeNext]
    exact .inr ⟨hs, hroom, rfl⟩

/-- A byte whose symbol fills it. -/
theorem eatNext_eq_openGroup (hi : decoderUnit.idle r.unit = true)
    (hpending : decoderUnit.idle (eatNext Decoder.eat j r).unit = false) :
    r.unit.skips (nextValue j r) = false ∧ (decodeNext j r).unit.bytePos = (decodeNext j r).unit.obs ∧
      openGroup (decodeNext j r) = eatNext Decoder.eat j r := by
  rw [decoderUnit_idle_iff] at hi
  rw [decoderUnit_idle_eq_false_iff, eatNext_unit] at hpending
  rcases Decoder.eat_cases hi (j.byteAt r.pos) (v := nextValue j r) rfl with
    ⟨-, -, h⟩ | ⟨hs, hfull, heq, -⟩ | ⟨-, -, -, h⟩
  · exact absurd h hpending
  · rw [openGroup, decodeNext_unit, decodeNext_port, decodeNext_pos, eatNext, heq]
    exact ⟨hs, hfull, rfl⟩
  · exact absurd h hpending

end

theorem decoderUnit_eats : decoderUnit.Eats decoderLoop Decoder.eat where
  lawful := decoderUnit_lawful
  data d c hi := by
    rcases Decoder.eat_cases ((decoderUnit_idle_iff d).mp hi) c rfl with ⟨-, -, h⟩ | ⟨-, -, -, h⟩ | ⟨-, -, -, h⟩ <;>
      simp [decoderUnit, h]
  zero _ _ := rfl
  room j count r hi hidle := by
    rcases eatNext_eq_skipNext_or_decodeNext hi hidle with ⟨hs, heq⟩ | ⟨hs, hroom, heq⟩
    · rw [decoderLoop_of_skips hs, heq]
    · rw [decoderLoop_of_room hs hroom, heq]
  flushed j count r r' hi hpending hres := by
    obtain ⟨hs, hfull, heq⟩ := eatNext_eq_openGroup hi hpending
    exact decoderLoop_of_flushed hs hfull (heq ▸ hres)
  unflushed j count r f r' hi hpending hres hf := by
    obtain ⟨hs, hfull, heq⟩ := eatNext_eq_openGroup hi hpending
    exact decoderLoop_of_unflushed hs hfull (heq ▸ hres) hf

/-- What one input byte does to an idle decoder and its stream. -/
abbrev decoderFeed : Decoder → Byte → Decoder × List StreamItem := decoderUnit.feedOf Decoder.eat

theorem decoderUnit_streams : decoderUnit.Streams decoderBody decoderFeed fun _ => True := decoderUnit_eats.streams

end Sys2Proof.Machine
end

section
/-! SUPPORT. The Grouper as a unit that is fed bytes (spec/47_grouper.md R251 to R254): each byte comes out as it is, the
separator before it when it begins a new group. -/

namespace Sys2Proof.Machine

open Sys2Proof.Statements

theorem grouperUnit_lawful : grouperUnit.Lawful where
  pending_setPendOff _ _ := rfl
  pendMel_setPendOff _ _ := rfl
  pendOff_setPendOff _ _ := rfl
  idle_setPendOff _ _ := rfl
  endsMessage_setPendOff _ _ := rfl
  complete_setPendOff _ _ := rfl
  idle_complete _ := rfl
  idle_beginEnd _ _ := rfl
  endsMessage_beginEnd _ _ := rfl

/-! ### Feeding -/

/-- The Grouper with its separator pending if its group is full (R251). -/
def Grouper.separated (g : Grouper) : Grouper :=
  if 0 < g.groupSize.toNat ∧ g.counter = g.groupSize.toNat then g.openSeparator else g

/-- What one input byte does to an idle Grouper and its stream. -/
def grouperFeed (g : Grouper) (v : Byte) : Grouper × List StreamItem :=
  ((grouperUnit.settled g.separated).count 1, grouperUnit.owes g.separated ++ [.byte v])

/-- The counter of a Grouper lies inside its group (R44). -/
def Grouper.CounterLe (g : Grouper) : Prop := g.counter ≤ g.groupSize.toNat

/-- `k` more bytes fit in the group, or there is no grouping. -/
def Grouper.HasRoom (g : Grouper) (k : Nat) : Prop := 0 < g.groupSize.toNat → g.counter + k ≤ g.groupSize.toNat

variable {g : Grouper}

@[simp] theorem Grouper.count_groupSize (g : Grouper) (k : Nat) : (g.count k).groupSize = g.groupSize := by
  unfold Grouper.count
  split <;> rfl

@[simp] theorem Grouper.count_fsm (g : Grouper) (k : Nat) : (g.count k).fsm = g.fsm := by
  unfold Grouper.count
  split <;> rfl

theorem Grouper.count_counter (g : Grouper) (k : Nat) :
    (g.count k).counter = if 0 < g.groupSize.toNat then g.counter + k else g.counter := by
  unfold Grouper.count
  split <;> rfl

theorem Grouper.CounterLe.count (h : g.CounterLe) {k : Nat} (hk : g.HasRoom k) : (g.count k).CounterLe := by
  rw [Grouper.CounterLe, Grouper.count_counter, Grouper.count_groupSize]
  split
  · exact hk ‹_›
  · exact h

theorem grouperFeed_of_room (hi : g.fsm = .idle) (h : g.HasRoom 1) (v : Byte) :
    grouperFeed g v = (g.count 1, [.byte v]) := by
  have hidle : grouperUnit.idle g = true := (grouperUnit_idle_iff g).mpr hi
  have hsep : g.separated = g := if_neg fun ⟨hpos, hfull⟩ => by have := h hpos; omega
  rw [grouperFeed, hsep, grouperUnit.settled_of_idle hidle, grouperUnit.owes_of_idle hidle]
  rfl

/-- Bytes that fit in the group come out as they are. -/
theorem digest_of_room (bytes l : List Byte) (hi : g.fsm = .idle) (h : g.HasRoom bytes.length) :
    digest grouperFeed g (bytes ++ l) = prepend (bytes.map .byte) (digest grouperFeed (g.count bytes.length) l) := by
  induction bytes generalizing g with
  | nil => simp
  | cons v bytes ih =>
    have hone : g.HasRoom 1 := fun hpos => by have := h hpos; rw [List.length_cons] at this; omega
    have hrest : (g.count 1).HasRoom bytes.length := fun hpos => by
      rw [Grouper.count_groupSize] at hpos
      have := h hpos
      rw [List.length_cons] at this
      rw [Grouper.count_groupSize, Grouper.count_counter, if_pos hpos]
      omega
    rw [List.cons_append, digest, grouperFeed_of_room hi hone, ih (by simpa using hi) hrest, Grouper.count_count,
      prepend_prepend, List.length_cons, Nat.add_comm 1]
    rfl

/-- The separator of a full group comes out before the byte that follows it. -/
theorem digest_of_full (hpos : 0 < g.groupSize.toNat) (hfull : g.counter = g.groupSize.toNat)
    (v : Byte) (l : List Byte) :
    digest grouperFeed g (v :: l) =
      prepend (grouperUnit.owes g.openSeparator) (digest grouperFeed (grouperUnit.settled g.openSeparator) (v :: l)) := by
  have hsep : g.separated = g.openSeparator := if_pos ⟨hpos, hfull⟩
  have hroom : (grouperUnit.settled g.openSeparator).HasRoom 1 := fun h => by
    show 0 + 1 ≤ g.groupSize.toNat
    omega
  rw [digest, digest, grouperFeed_of_room rfl hroom, grouperFeed, hsep, prepend_prepend]

/-! ### Forwarding (R252) -/

theorem Memory.readN_add (m : Memory) (a n k : Nat) : m.readN a (n + k) = m.readN a n ++ m.readN (a + n) k := by
  simp only [Memory.readN, List.range_add, List.map_append, List.map_map, Function.comp_def, Nat.add_assoc]

theorem Memory.readN_take (m : Memory) (a : Nat) {n k : Nat} (h : k ≤ n) : (m.readN a n).take k = m.readN a k := by
  rw [show n = k + (n - k) by omega, Memory.readN_add, List.take_left' (m.readN_length a k)]

theorem PutJob.rest_add (j : PutJob) {pos k : Nat} (h : pos + k ≤ j.n) :
    j.rest pos = j.mem.readN (j.base + pos) k ++ j.rest (pos + k) := by
  rw [PutJob.rest, PutJob.rest, ← Nat.add_assoc, ← Memory.readN_add]
  congr 1
  omega

/-- Forwarding adds to the stream the bytes it passes. -/
theorem forwardLoop_appends (j : PutJob) (drawn : Nat) (ts : List Nat) (h : List Event) (left : Nat) (g : Grouper)
    (pos : Nat) :
    let res := forwardLoop j drawn ts h left g pos
    ∃ es, res.2.port.history = h ++ es ∧
      ∀ k, res.2.pos = pos + k → streamOf es = (j.mem.readN (j.base + pos) k).map .byte := by
  have hoffer (t left pos : Nat) :
      streamOf [.offer (j.mem.readN (j.base + pos) left) 0 j.blocking (takenOf t (j.mem.readN (j.base + pos) left))] =
        (j.mem.readN (j.base + pos) (takenOf t (j.mem.readN (j.base + pos) left))).map .byte := by
    rw [streamOf_offer, Memory.readN_take _ _ (by simp [takenOf])]
  induction ts generalizing h left g pos with
  | nil =>
    simp only [forwardLoop]
    split <;> exact ⟨_, rfl, fun k hk => by rw [hoffer, Nat.add_left_cancel hk]⟩
  | cons t ts ih =>
    have htaken := hoffer t left pos
    simp only [forwardLoop]
    revert htaken
    generalize takenOf t (j.mem.readN (j.base + pos) left) = k₀
    generalize Event.offer (j.mem.readN (j.base + pos) left) 0 j.blocking k₀ = e
    intro htaken
    split
    · exact ⟨_, rfl, fun k hk => by rw [htaken, Nat.add_left_cancel hk]⟩
    · split
      · obtain ⟨es, heq, hes⟩ := ih (h ++ [e]) (left - k₀) (g.count k₀) (pos + k₀)
        obtain ⟨k', -, hpos, -⟩ := forwardLoop_spec j drawn ts (h ++ [e]) (left - k₀) (g.count k₀) (pos + k₀)
        refine ⟨e :: es, by rw [heq, List.append_assoc, List.singleton_append], fun k hk => ?_⟩
        obtain rfl : k = k₀ + k' := by omega
        rw [← List.singleton_append, streamOf_append, htaken, hes k' hpos, ← List.map_append, ← Nat.add_assoc,
          ← Memory.readN_add]
      · exact ⟨_, rfl, fun k hk => by rw [htaken, Nat.add_left_cancel hk]⟩

section
variable {j : PutJob} {r : PutRun Grouper}

/-- All that forwarding a chunk of an idle Grouper's input does that fits in its group. -/
theorem forwardData_spec {m : Nat} (hi : r.unit.fsm = .idle) (hm : r.unit.HasRoom m) (hn : r.pos + m ≤ j.n) :
    grouperUnit.Advances grouperFeed j r (forwardData j m r).2 ∧
      ∃ k, k ≤ m ∧ (forwardData j m r).2.pos = r.pos + k ∧ (forwardData j m r).2.unit = r.unit.count k ∧
        ((forwardData j m r).1 = .go → k = m) := by
  obtain ⟨k, hk, hpos, hunit, hgo, -⟩ := forwardLoop_spec j r.port.drawn r.port.answers r.port.history m r.unit r.pos
  obtain ⟨es, heq, hes⟩ := forwardLoop_appends j r.port.drawn r.port.answers r.port.history m r.unit r.pos
  rw [← forwardData] at hpos hunit heq hgo hes
  refine ⟨⟨by omega, by omega, es, heq, fun rest => ?_⟩, k, hk, hpos, hunit, hgo⟩
  have hidle : grouperUnit.idle (r.unit.count k) = true := by simpa using hi
  have hroom : r.unit.HasRoom (j.mem.readN (j.base + r.pos) k).length := fun h => by
    have := hm h
    rw [Memory.readN_length]
    omega
  rw [hunit, hpos, grouperUnit.resume_of_idle ((grouperUnit_idle_iff _).mpr hi), grouperUnit.resume_of_idle hidle,
    j.rest_add (show r.pos + k ≤ j.n by omega), List.append_assoc, digest_of_room _ _ hi hroom, hes k hpos,
    Memory.readN_length]

/-- The separator before the next byte. -/
theorem separate_spec (hi : r.unit.fsm = .idle) (hpos : 0 < r.unit.groupSize.toNat) (hn : r.pos < j.n) :
    grouperUnit.Advances grouperFeed j r (separate j r).2 ∧ ¬EndPending grouperUnit (separate j r).2.unit ∧
      ((separate j r).1 = .go → (separate j r).2.unit = grouperUnit.settled r.unit.separated) := by
  unfold separate
  split
  · rename_i hfull
    have hpending : grouperUnit.idle r.unit.openSeparator = false := rfl
    have hopen : grouperUnit.Advances grouperFeed j r { r with unit := r.unit.openSeparator } := by
      refine ⟨Nat.le_refl _, hn.le, [], (List.append_nil _).symm, fun rest => ?_⟩
      rw [grouperUnit.resume_of_idle ((grouperUnit_idle_iff _).mpr hi), j.rest_of_lt hn, List.cons_append,
        digest_of_full hpos hfull]
      rfl
    obtain ⟨-, -, hgo, hstop⟩ := grouperUnit_lawful.flush j (r := { r with unit := r.unit.openSeparator }) hpending
    refine ⟨hopen.trans (grouperUnit_lawful.flush_advances hn.le hpending), fun h => ?_, fun h => ?_⟩
    · by_cases hf : (grouperUnit.flush j { r with unit := r.unit.openSeparator }).1 = .go
      · rw [hgo hf] at h
        exact grouperUnit.not_endPending_of_idle (grouperUnit_lawful.idle_settled _) h
      · exact absurd ((hstop hf).2.symm.trans h.2) Bool.noConfusion
    · rw [hgo h, Grouper.separated, if_pos ⟨hpos, hfull⟩]
  · rename_i hne
    have hidle : grouperUnit.idle r.unit = true := (grouperUnit_idle_iff _).mpr hi
    refine ⟨.refl hn.le, grouperUnit.not_endPending_of_idle hidle, fun _ => ?_⟩
    rw [Grouper.separated, if_neg fun h => hne h.2, grouperUnit.settled_of_idle hidle]

/-- A Grouper that has its separator behind it is idle, with room in its group. -/
theorem Grouper.settled_separated (hi : g.fsm = .idle) (hc : g.CounterLe) (hpos : 0 < g.groupSize.toNat) :
    (grouperUnit.settled g.separated).fsm = .idle ∧ (grouperUnit.settled g.separated).groupSize = g.groupSize ∧
      (grouperUnit.settled g.separated).counter < g.groupSize.toNat := by
  unfold Grouper.separated
  split
  · exact ⟨rfl, rfl, hpos⟩
  · rename_i hne
    rw [grouperUnit.settled_of_idle ((grouperUnit_idle_iff _).mpr hi)]
    exact ⟨hi, rfl, lt_of_le_of_ne hc fun h => hne ⟨hpos, h⟩⟩

/-! ### The loop over the groups (R251) -/

/-- The chunk of a pass. -/
def chunkLength (j : PutJob) (r : PutRun Grouper) : Nat := min (j.n - r.pos) (r.unit.groupSize.toNat - r.unit.counter)

variable {fuel : Nat} {r' : PutRun Grouper}

theorem groupLoop_of_end (h : ¬r.pos < j.n) : groupLoop j fuel r = (.go, r) := by
  cases fuel with
  | zero => rfl
  | succ fuel => simp only [groupLoop, if_neg h]

theorem groupLoop_of_unseparated {f : Flow} (h : r.pos < j.n) (hs : separate j r = (f, r')) (hf : f ≠ .go) :
    groupLoop j (fuel + 1) r = (f, r') := by
  simp only [groupLoop, if_pos h, hs]

theorem groupLoop_of_forwarded {r'' : PutRun Grouper} (h : r.pos < j.n) (hs : separate j r = (.go, r'))
    (hf : forwardData j (chunkLength j r') r' = (.go, r'')) : groupLoop j (fuel + 1) r = groupLoop j fuel r'' := by
  rw [chunkLength] at hf
  simp only [groupLoop, if_pos h, hs, hf]

theorem groupLoop_of_unforwarded {f : Flow} {r'' : PutRun Grouper} (h : r.pos < j.n) (hs : separate j r = (.go, r'))
    (hf : forwardData j (chunkLength j r') r' = (f, r'')) (hne : f ≠ .go) : groupLoop j (fuel + 1) r = (f, r'') := by
  rw [chunkLength] at hf
  simp only [groupLoop, if_pos h, hs, hf]

/-- The loop over the groups of an idle Grouper's input. -/
theorem groupLoop_spec (hi : r.unit.fsm = .idle) (hc : r.unit.CounterLe) (hpos : 0 < r.unit.groupSize.toNat)
    (hn : r.pos ≤ j.n) (hfuel : j.n ≤ r.pos + fuel) :
    grouperUnit.Advances grouperFeed j r (groupLoop j fuel r).2 ∧ ¬EndPending grouperUnit (groupLoop j fuel r).2.unit ∧
      ((groupLoop j fuel r).1 = .go →
        grouperUnit.idle (groupLoop j fuel r).2.unit = true ∧ (groupLoop j fuel r).2.pos = j.n) := by
  induction fuel generalizing r with
  | zero =>
    have hidle : grouperUnit.idle r.unit = true := (grouperUnit_idle_iff _).mpr hi
    exact ⟨.refl hn, grouperUnit.not_endPending_of_idle hidle, fun _ => ⟨hidle, show r.pos = j.n by omega⟩⟩
  | succ fuel ih =>
    by_cases hlt : r.pos < j.n
    · obtain ⟨hadv, hdata, hgo⟩ := separate_spec hi hpos hlt
      have hposSep := separate_pos j r
      rcases hs : separate j r with ⟨f, r'⟩
      rw [hs] at hadv hdata hgo hposSep
      dsimp only at hadv hdata hgo hposSep
      by_cases hf : f = .go
      · subst hf
        obtain ⟨hi', hsize', hlt'⟩ := Grouper.settled_separated hi hc hpos
        rw [← hgo rfl] at hi' hsize' hlt'
        have hchunk : r'.unit.HasRoom (chunkLength j r') := fun _ => by rw [chunkLength, hsize']; omega
        obtain ⟨hadv', k, hk, hposFwd, hunit, hgoFwd⟩ := forwardData_spec (j := j) hi' hchunk (by rw [chunkLength]; omega)
        rcases hres : forwardData j (chunkLength j r') r' with ⟨f', r''⟩
        rw [hres] at hadv' hposFwd hunit hgoFwd
        dsimp only at hadv' hposFwd hunit hgoFwd
        have hi'' : r''.unit.fsm = .idle := by rw [hunit, Grouper.count_fsm, hi']
        have hdata' := grouperUnit.not_endPending_of_idle ((grouperUnit_idle_iff _).mpr hi'')
        by_cases hf' : f' = .go
        · subst hf'
          rw [groupLoop_of_forwarded hlt hs hres]
          have hc'' : r''.unit.CounterLe := by
            rw [hunit]
            refine Grouper.CounterLe.count (by rw [Grouper.CounterLe, hsize']; exact hlt'.le) fun h => ?_
            have := hchunk h
            omega
          have hk' := hgoFwd rfl
          rw [chunkLength] at hk'
          obtain ⟨hadv'', hrest⟩ := ih hi'' hc'' (by rwa [hunit, Grouper.count_groupSize, hsize'])
            hadv'.2.1 (by rw [hsize'] at hk'; omega)
          exact ⟨(hadv.trans hadv').trans hadv'', hrest⟩
        · rw [groupLoop_of_unforwarded hlt hs hres hf']
          exact ⟨hadv.trans hadv', hdata', fun h => absurd h hf'⟩
      · rw [groupLoop_of_unseparated hlt hs hf]
        exact ⟨hadv, hdata, fun h => absurd h hf⟩
    · have hidle : grouperUnit.idle r.unit = true := (grouperUnit_idle_iff _).mpr hi
      rw [groupLoop_of_end hlt]
      exact ⟨.refl hn, grouperUnit.not_endPending_of_idle hidle, fun _ => ⟨hidle, Nat.le_antisymm hn (Nat.not_lt.mp hlt)⟩⟩

end

/-! ### The unit -/

theorem Grouper.CounterLe.flush {j : PutJob} {r : PutRun Grouper} (h : r.unit.CounterLe) :
    (grouperUnit.flush j r).2.unit.CounterLe := by
  obtain ⟨off, -, ⟨-, heq⟩ | ⟨-, heq⟩⟩ := grouperUnit.flush_unit j r
  · rw [heq]
    exact Nat.zero_le _
  · rw [heq]
    exact h

theorem forwardData_counterLe {j : PutJob} {r : PutRun Grouper} {m : Nat} (h : r.unit.CounterLe) (hm : r.unit.HasRoom m) :
    (forwardData j m r).2.unit.CounterLe := by
  obtain ⟨k, hk, -, hunit, -⟩ := forwardLoop_spec j r.port.drawn r.port.answers r.port.history m r.unit r.pos
  rw [forwardData, hunit]
  exact h.count fun hpos => by have := hm hpos; omega

theorem grouperBody_counterLe (j : PutJob) (r : PutRun Grouper) (h : r.unit.CounterLe) :
    (grouperBody j r).2.unit.CounterLe := by
  unfold grouperBody
  split
  · rename_i hzero
    split
    · exact forwardData_counterLe h fun hpos => absurd hpos (by omega)
    · exact h
  · refine (groupLoop_keeps j (P := fun r => r.unit.CounterLe) (Q := fun r => r.unit.CounterLe) (fun _ h => h)
      (fun r h => ?_) (fun r h => ?_) (j.n - r.pos) r h).1
    · have hsep : (separate j r).2.unit.CounterLe := by
        unfold separate
        split
        · exact Grouper.CounterLe.flush (r := { r with unit := r.unit.openSeparator }) h
        · exact h
      exact ⟨hsep, fun _ => hsep⟩
    · have hfwd : (forwardGroup j r).2.unit.CounterLe := by
        refine forwardData_counterLe h fun _ => ?_
        have hle : r.unit.counter ≤ r.unit.groupSize.toNat := h
        omega
      exact ⟨hfwd, fun _ => hfwd⟩

/-- A Grouper's put takes the stream of its input. -/
theorem grouperUnit_streams : grouperUnit.Streams grouperBody grouperFeed Grouper.CounterLe where
  lawful := grouperUnit_lawful
  setPendOff _ _ h := h
  complete _ _ := Nat.zero_le _
  beginEnd _ _ h := h
  body_keeps := grouperBody_counterLe
  body_spec j r hc hi hn := by
    have hidle := (grouperUnit_idle_iff r.unit).mp hi
    unfold grouperBody
    split
    · rename_i hzero
      split
      · obtain ⟨hadv, k, -, hpos, hunit, hgo⟩ := forwardData_spec (j := j) (m := j.n - r.pos) hidle
          (fun hpos => absurd hpos (by omega)) (by omega)
        have hidle' : grouperUnit.idle (forwardData j (j.n - r.pos) r).2.unit = true := by
          rw [hunit, grouperUnit_idle_iff, Grouper.count_fsm, hidle]
        exact ⟨hadv, grouperUnit.not_endPending_of_idle hidle', fun h => ⟨hidle', by have := hgo h; omega⟩⟩
      · exact ⟨.refl hn, grouperUnit.not_endPending_of_idle hi, fun _ => ⟨hi, show r.pos = j.n by omega⟩⟩
    · rename_i hsize
      exact groupLoop_spec hidle hc (Nat.pos_of_ne_zero hsize) hn (by omega)

end Sys2Proof.Machine
end

section
/-! PROOF. Streaming invariance (spec/44_filter_interface.md R193, R197, R199). -/

namespace Sys2Proof.Proofs

open Sys2Proof.Machine Sys2Proof.Statements

/-- Settles O37: both puts make of unit and stream what the message makes of them. -/
theorem sinkPaceDoesNotMatter : Obligations.SinkPaceDoesNotMatter := by
  intro l mel sa sb as bs
  exact ⟨fun e _ => encoderUnit_streams.putMessage_unique trivial, fun d _ => decoderUnit_streams.putMessage_unique trivial,
    fun g hg => grouperUnit_streams.putMessage_unique hg.counterLe⟩

/-- Settles O38: each put of a session takes its part of the stream that the message makes, so that both sessions give
all of it and leave the unit that the message makes. -/
theorem splittingDoesNotMatter : Obligations.SplittingDoesNotMatter := by
  intro l mel _
  exact ⟨fun e x y p q _ _ _ => encoderUnit_streams.session_unique trivial,
    fun d x y p q _ _ _ => decoderUnit_streams.session_unique trivial,
    fun g x y p q hg _ _ => grouperUnit_streams.session_unique hg.counterLe⟩

end Sys2Proof.Proofs
end

section
/-! SUPPORT. The put commands from the state (spec/44_filter_interface.md R194, R196, R198): what a put leaves when it ends,
and what it leaves alone. -/

namespace Sys2Proof.Machine

open Sys2Proof.Statements

/-! ### The end of a put -/

/-- `STATUS` after a put of a started command (R194, R304). -/
def endStatus (f : Flow) (s : State) : Status :=
  match f with
  | .go => endedOk s
  | .stall => endedStalled s
  | .wait => s.status

section
variable {s : State} {f : Flow} {n : BitVec 4} {k : Bool} {m : Byte}

theorem State.endPut_eq (hs : Started s) (hf : f ≠ .wait) (pos events : Nat) :
    s.endPut f pos events = { s with result := residual s.len3 pos, status := endStatus f s, latch := Latch.idle } := by
  cases f with
  | go => rw [endStatus, ← finish_eq_endedOk hs]; rfl
  | stall =>
    have hstall : s.status.stall = endedStalled s := by rw [hs.1]; rfl
    rw [endStatus, ← hstall]
    rfl
  | wait => exact absurd rfl hf

theorem residual_toNat (s : State) (pos : Nat) : (residual s.len3 pos).toNat = s.len3 - pos := by
  have hlt : s.len3 < 2 ^ 32 := s.latch.args.a3.isLt
  rw [residual, BitVec.toNat_ofNat, Nat.mod_eq_of_lt (by omega)]

theorem putChecks_pass {U : Type} {u : PutUnit U} {unit : U} (hv : u.valid unit = true) (hfits : Fits s.addr0 s.len3) :
    ∀ c ∈ putChecks u unit s, c.fails = false :=
  List.forall_mem_cons.mpr ⟨by simp [hv], List.forall_mem_singleton.mpr ((rangeCheck_passes_iff_fits _ _ _).mpr hfits)⟩

/-- A `BENC_PUT` that runs and does not wait, by how it runs. -/
theorem exec_bencPut (hn : n.toNat < Config.params.nBenc) (hs : Started s) (hv : (s.encoder n).valid = true)
    (hfits : Fits s.addr0 s.len3) (hf : (s.encoderRun n k m).1 ≠ .wait) :
    ∃ t, exec (.bencPut n k m) s = .next t ∧
      t = { s with enc := t.enc, outE := t.outE, result := t.result, status := endStatus (s.encoderRun n k m).1 s,
                   latch := Latch.idle } ∧
      t.result.toNat = s.len3 - (s.encoderRun n k m).2.pos ∧ t.encoder n = (s.encoderRun n k m).2.unit ∧
      t.portE n = (s.encoderRun n k m).2.port := by
  refine ⟨_, (State.guarded_of_pass (putChecks_pass (u := encoderUnit) hv hfits)).trans
    (congrArg _ (State.endPut_eq (s := (s.setEncoder n (s.encoderRun n k m).2.unit).setPortE n (s.encoderRun n k m).2.port)
      hs hf _ _)), rfl, residual_toNat s _, ?_, ?_⟩
  · exact s.encoder_setEncoder n _ hn
  · exact s.portE_setPortE n _ hn

/-- A `BDEC_PUT`. -/
theorem exec_bdecPut (hn : n.toNat < Config.params.nBdec) (hs : Started s) (hv : (s.decoder n).valid = true)
    (hfits : Fits s.addr0 s.len3) (hf : (s.decoderRun n k m).1 ≠ .wait) :
    ∃ t, exec (.bdecPut n k m) s = .next t ∧
      t = { s with dec := t.dec, outD := t.outD, result := t.result, status := endStatus (s.decoderRun n k m).1 s,
                   latch := Latch.idle } ∧
      t.result.toNat = s.len3 - (s.decoderRun n k m).2.pos ∧ t.decoder n = (s.decoderRun n k m).2.unit ∧
      t.portD n = (s.decoderRun n k m).2.port := by
  refine ⟨_, (State.guarded_of_pass (putChecks_pass (u := decoderUnit) hv hfits)).trans
    (congrArg _ (State.endPut_eq (s := (s.setDecoder n (s.decoderRun n k m).2.unit).setPortD n (s.decoderRun n k m).2.port)
      hs hf _ _)), rfl, residual_toNat s _, ?_, ?_⟩
  · exact s.decoder_setDecoder n _ hn
  · exact s.portD_setPortD n _ hn

/-- A `GRP_PUT`. -/
theorem exec_grpPut (hn : n.toNat < Config.params.nGrp) (hs : Started s) (hv : (s.grouper n).valid = true)
    (hfits : Fits s.addr0 s.len3) (hf : (s.grouperRun n k m).1 ≠ .wait) :
    ∃ t, exec (.grpPut n k m) s = .next t ∧
      t = { s with grp := t.grp, outG := t.outG, result := t.result, status := endStatus (s.grouperRun n k m).1 s,
                   latch := Latch.idle } ∧
      t.result.toNat = s.len3 - (s.grouperRun n k m).2.pos ∧ t.grouper n = (s.grouperRun n k m).2.unit ∧
      t.portG n = (s.grouperRun n k m).2.port := by
  refine ⟨_, (State.guarded_of_pass (putChecks_pass (u := grouperUnit) hv hfits)).trans
    (congrArg _ (State.endPut_eq (s := (s.setGrouper n (s.grouperRun n k m).2.unit).setPortG n (s.grouperRun n k m).2.port)
      hs hf _ _)), rfl, residual_toNat s _, ?_, ?_⟩
  · exact s.grouper_setGrouper n _ hn
  · exact s.portG_setPortG n _ hn

end

/-! ### What a put leaves alone -/

section
variable {U : Type} {u : PutUnit U} {j : PutJob} {r : PutRun U} {h : List Event}

theorem PutUnit.flush_history (u : PutUnit U) (j : PutJob) (r : PutRun U) {h : List Event} (hr : h <+: r.port.history) :
    h <+: (u.flush j r).2.port.history := by
  obtain ⟨es, heq, -⟩ := emitLoop_appends (u.pending r.unit) (u.pendMel r.unit) j.blocking j.sink r.port.drawn
    r.port.answers r.port.history (u.pendOff r.unit)
  rw [u.flush_spec]
  exact hr.trans ⟨es, heq.symm⟩

/-- A put whose body only adds to the history only adds to it. -/
theorem PutUnit.run_history {body : PutJob → PutRun U → Flow × PutRun U}
    (hbody : ∀ r, h <+: r.port.history → h <+: (body j r).2.port.history) (hr : h <+: r.port.history) :
    h <+: (u.run body j r).2.port.history :=
  u.run_keeps body j (P := fun r => h <+: r.port.history) (Q := fun r => h <+: r.port.history) (fun _ h => h)
    (fun _ h _ => h) (fun r hr => ⟨hbody r hr, fun _ => hbody r hr⟩)
    (fun r hr => by
      unfold PutUnit.messageEnd
      split
      · exact u.flush_history j _ hr
      · exact hr)
    (fun r hr _ => ⟨u.flush_history j r hr, fun _ => u.flush_history j r hr⟩) r hr

end

section
variable {h : List Event}

theorem encoderBody_history (j : PutJob) (r : PutRun Encoder) (hr : h <+: r.port.history) :
    h <+: (encoderBody j r).2.port.history :=
  (encoderLoop_keeps j (P := fun _ r => h <+: r.port.history) (Q := fun r => h <+: r.port.history) (fun _ h => h)
    (fun _ r hr _ => by rwa [packNext_port])
    (fun _ r hr => by
      have hflush := encoderUnit.flush_history (h := h) j (openFull (packNext j r)) (by rwa [openFull_port, packNext_port])
      exact ⟨hflush, fun _ => hflush⟩) (j.n - r.pos) r hr).1

theorem decoderBody_history (j : PutJob) (r : PutRun Decoder) (hr : h <+: r.port.history) :
    h <+: (decoderBody j r).2.port.history :=
  (decoderLoop_keeps j (P := fun _ r => h <+: r.port.history) (Q := fun r => h <+: r.port.history) (fun _ h => h)
    (fun _ _ hr => hr) (fun _ r hr _ => by rwa [decodeNext_port])
    (fun _ r hr => by
      have hflush := decoderUnit.flush_history (h := h) j (openGroup (decodeNext j r)) (by rwa [openGroup_port, decodeNext_port])
      exact ⟨hflush, fun _ => hflush⟩) (j.n - r.pos) r hr).1

theorem forwardData_history (j : PutJob) (m : Nat) (r : PutRun Grouper) (hr : h <+: r.port.history) :
    h <+: (forwardData j m r).2.port.history := by
  obtain ⟨es, heq, -⟩ := forwardLoop_appends j r.port.drawn r.port.answers r.port.history m r.unit r.pos
  exact hr.trans ⟨es, heq.symm⟩

theorem grouperBody_history (j : PutJob) (r : PutRun Grouper) (hr : h <+: r.port.history) :
    h <+: (grouperBody j r).2.port.history := by
  unfold grouperBody
  split
  · split
    · exact forwardData_history j _ r hr
    · exact hr
  · refine (groupLoop_keeps j (P := fun r => h <+: r.port.history) (Q := fun r => h <+: r.port.history) (fun _ h => h)
      (fun r hr => ?_) (fun r hr => ⟨forwardData_history j _ r hr, fun _ => forwardData_history j _ r hr⟩)
      (j.n - r.pos) r hr).1
    have hsep : h <+: (separate j r).2.port.history := by
      unfold separate
      split
      · exact grouperUnit.flush_history j _ hr
      · exact hr
    exact ⟨hsep, fun _ => hsep⟩

end

/-- What relates an entry of a bank to its replacement relates each entry to what it becomes. -/
theorem entry_setEntry_related {α : Type} {k : Nat} {R : α → α → Prop} (hrefl : ∀ x, R x x) {v : Vector α k} {i : Nat}
    {a d : α} (h : R (entry v i d) a) (q : Nat) : R (entry v q d) (entry (setEntry v i a) q d) := by
  rw [entry_setEntry]
  split
  · rename_i hq
    exact hq.1 ▸ h
  · exact hrefl _

/-- An entry of a bank that another instance names stays. -/
theorem entry_setEntry_otherInstance {α : Type} {k : Nat} (v : Vector α k) {n q : BitVec 4} (a d : α) (h : q ≠ n) :
    entry (setEntry v n.toNat a) q.toNat d = entry v q.toNat d :=
  entry_setEntry_other _ _ _ _ _ fun he => h (BitVec.eq_of_toNat_eq he.symm)

theorem State.endPut_frame (s : State) (f : Flow) (pos events : Nat) :
    s.endPut f pos events = { s with
      result := (s.endPut f pos events).result
      status := (s.endPut f pos events).status
      latch := (s.endPut f pos events).latch } := by
  cases f <;> rfl

/-- What the end of a put changes, its port's history only growing (R201): on an encoder and its port, -/
theorem encoderPut_frame {s t : State} {n : BitVec 4} {e : Encoder} {p : Port} {f : Flow} {pos events : Nat}
    (ht : t = ((s.setEncoder n e).setPortE n p).endPut f pos events) (hp : (s.portE n).history <+: p.history) :
    t = { s with enc := t.enc, outE := t.outE, result := t.result, status := t.status, latch := t.latch } ∧
      (∀ q, q ≠ n → t.encoder q = s.encoder q ∧ t.portE q = s.portE q) ∧
      ∀ q, (s.portE q).history <+: (t.portE q).history := by
  have henc : t.enc = setEntry s.enc n.toNat e := by rw [ht, State.endPut_enc]; rfl
  have hout : t.outE = setEntry s.outE n.toNat p := by rw [ht, State.endPut_outE]; rfl
  refine ⟨?frame, fun q hq => ?others, fun q => ?history⟩
  case frame =>
    rw [henc, hout, ht]
    exact State.endPut_frame _ f pos events
  case others =>
    rw [State.encoder, State.portE, henc, hout]
    exact ⟨entry_setEntry_otherInstance _ _ _ hq, entry_setEntry_otherInstance _ _ _ hq⟩
  case history =>
    rw [State.portE, State.portE, hout]
    exact entry_setEntry_related (R := fun p p' : Port => p.history <+: p'.history) (fun _ => List.prefix_rfl) hp q.toNat

/-- on a decoder and its port, -/
theorem decoderPut_frame {s t : State} {n : BitVec 4} {d : Decoder} {p : Port} {f : Flow} {pos events : Nat}
    (ht : t = ((s.setDecoder n d).setPortD n p).endPut f pos events) (hp : (s.portD n).history <+: p.history) :
    t = { s with dec := t.dec, outD := t.outD, result := t.result, status := t.status, latch := t.latch } ∧
      (∀ q, q ≠ n → t.decoder q = s.decoder q ∧ t.portD q = s.portD q) ∧
      ∀ q, (s.portD q).history <+: (t.portD q).history := by
  have hdec : t.dec = setEntry s.dec n.toNat d := by rw [ht, State.endPut_dec]; rfl
  have hout : t.outD = setEntry s.outD n.toNat p := by rw [ht, State.endPut_outD]; rfl
  refine ⟨?frame, fun q hq => ?others, fun q => ?history⟩
  case frame =>
    rw [hdec, hout, ht]
    exact State.endPut_frame _ f pos events
  case others =>
    rw [State.decoder, State.portD, hdec, hout]
    exact ⟨entry_setEntry_otherInstance _ _ _ hq, entry_setEntry_otherInstance _ _ _ hq⟩
  case history =>
    rw [State.portD, State.portD, hout]
    exact entry_setEntry_related (R := fun p p' : Port => p.history <+: p'.history) (fun _ => List.prefix_rfl) hp q.toNat

/-- and on a Grouper and its port. -/
theorem grouperPut_frame {s t : State} {n : BitVec 4} {g : Grouper} {p : Port} {f : Flow} {pos events : Nat}
    (ht : t = ((s.setGrouper n g).setPortG n p).endPut f pos events) (hp : (s.portG n).history <+: p.history) :
    t = { s with grp := t.grp, outG := t.outG, result := t.result, status := t.status, latch := t.latch } ∧
      (∀ q, q ≠ n → t.grouper q = s.grouper q ∧ t.portG q = s.portG q) ∧
      ∀ q, (s.portG q).history <+: (t.portG q).history := by
  have hgrp : t.grp = setEntry s.grp n.toNat g := by rw [ht, State.endPut_grp]; rfl
  have hout : t.outG = setEntry s.outG n.toNat p := by rw [ht, State.endPut_outG]; rfl
  refine ⟨?frame, fun q hq => ?others, fun q => ?history⟩
  case frame =>
    rw [hgrp, hout, ht]
    exact State.endPut_frame _ f pos events
  case others =>
    rw [State.grouper, State.portG, hgrp, hout]
    exact ⟨entry_setEntry_otherInstance _ _ _ hq, entry_setEntry_otherInstance _ _ _ hq⟩
  case history =>
    rw [State.portG, State.portG, hout]
    exact entry_setEntry_related (R := fun p p' : Port => p.history <+: p'.history) (fun _ => List.prefix_rfl) hp q.toNat

end Sys2Proof.Machine
end

section
/-! PROOF. What a put leaves alone (spec/44_filter_interface.md R196, R201). -/

namespace Sys2Proof.Proofs

open Sys2Proof.Machine Sys2Proof.Statements

/-- Settles O32: an error leaves every unit and port; otherwise a put replaces the instance and the port that `INST`
names, and every part of it only adds to the port's history. -/
theorem putsTouchOnlyTheirInstance : Obligations.PutsTouchOnlyTheirInstance := by
  intro n k m s t
  refine ⟨fun h => ?encoder, fun h => ?decoder, fun h => ?grouper⟩
  all_goals obtain ⟨code, arg, -, -, rfl⟩ | ⟨-, ht⟩ := exec_raise_or_effect h
  case encoder.inr => exact encoderPut_frame ht (PutUnit.run_history (encoderBody_history _) List.prefix_rfl)
  case decoder.inr => exact decoderPut_frame ht (PutUnit.run_history (decoderBody_history _) List.prefix_rfl)
  case grouper.inr => exact grouperPut_frame ht (PutUnit.run_history (grouperBody_history _) List.prefix_rfl)
  all_goals exact ⟨rfl, fun _ _ => ⟨rfl, rfl⟩, fun _ => List.prefix_rfl⟩

end Sys2Proof.Proofs
end

section
/-! SUPPORT. Puts whose sink takes what it is offered (spec/44_filter_interface.md R191 to R193, R196): each emission uses
up one answer, so that enough of them bring the put to its end. -/

namespace Sys2Proof.Machine

open Sys2Proof.Statements

/-! ### Answers -/

section
variable {p : Port} {k size : Nat}

theorem takesAll_mono {k' : Nat} (h : TakesAll p k size) (hk : k' ≤ k) : TakesAll p k' size := ⟨hk.trans h.1, h.2⟩

/-- The next of at least one answers takes an offer of no more than `size` bytes. -/
theorem takesAll_next (h : TakesAll p (k + 1) size) (free : Nat) : size ≤ p.answers.headD free := by
  obtain ⟨hlen, hall⟩ := h
  cases ha : p.answers with
  | nil => simp [ha] at hlen
  | cons t ts => exact hall t (by simp [ha])

theorem takesAll_tail {p' : Port} (h : TakesAll p (k + 1) size) (hp : p'.answers = p.answers.tail) : TakesAll p' k size := by
  obtain ⟨hlen, hall⟩ := h
  rw [TakesAll, hp, List.length_tail]
  exact ⟨by omega, fun t ht => hall t (List.mem_of_mem_tail ht)⟩

end

/-! ### Emissions -/

section
variable {U : Type} {u : PutUnit U} {j : PutJob} {r : PutRun U} {k size : Nat}

/-- The rest of a unit's pending emission lies inside it. -/
def PutUnit.OffLe (u : PutUnit U) (x : U) : Prop := u.pendOff x ≤ (u.pending x).length

/-- An emission whose rest the sink takes next is complete. -/
theorem PutUnit.flush_go (hoff : u.OffLe r.unit)
    (hnext : (u.pending r.unit).length - u.pendOff r.unit ≤ r.port.answers.headD (j.sink r.port.drawn)) :
    (u.flush j r).1 = .go ∧ (u.flush j r).2.port.answers = r.port.answers.tail := by
  rw [u.flush_spec]
  exact emit_go _ _ hnext hoff

theorem PutUnit.flush_takesAll (hoff : u.OffLe r.unit) (hsize : (u.pending r.unit).length ≤ size)
    (h : TakesAll r.port (k + 1) size) : (u.flush j r).1 = .go ∧ TakesAll (u.flush j r).2.port k size := by
  obtain ⟨hgo, hanswers⟩ := u.flush_go (j := j) hoff
    (((Nat.sub_le _ _).trans hsize).trans (takesAll_next h (j.sink r.port.drawn)))
  exact ⟨hgo, takesAll_tail h hanswers⟩

/-- The emissions of a unit are no longer than `size`, and those it opens are whole. -/
structure PutUnit.EmitsUpTo (u : PutUnit U) (size : Nat) : Prop where
  length_le : ∀ x, (u.pending x).length ≤ size
  pendOff_beginEnd : ∀ x mel, u.pendOff (u.beginEnd x mel) = 0

theorem PutUnit.offLe_of_zero {x : U} (h : u.pendOff x = 0) : u.OffLe x := by
  rw [PutUnit.OffLe, h]
  exact Nat.zero_le _

/-- A put goes through when its body does and leaves an answer for the message end, and one answer more is listed for
the pending emission. -/
theorem PutUnit.EmitsUpTo.run_go (hu : u.EmitsUpTo size) {body : PutJob → PutRun U → Flow × PutRun U} {need : Nat}
    (hbody : ∀ r, u.idle r.unit = true → TakesAll r.port (need + 1) size →
      (body j r).1 = .go ∧ TakesAll (body j r).2.port 1 size)
    (hlawful : u.Lawful) (hoff : u.OffLe r.unit) (h : TakesAll r.port (need + 2) size) :
    (u.run body j r).1 = .go := by
  have hprocess (r : PutRun U) (hi : u.idle r.unit = true) (h : TakesAll r.port (need + 1) size) :
      (u.process body j r).1 = .go := by
    obtain ⟨hgo, hone⟩ := hbody r hi h
    rw [PutUnit.process]
    rcases hres : body j r with ⟨f, r'⟩
    rw [hres] at hgo hone
    obtain rfl : f = .go := hgo
    show (u.messageEnd j r').1 = .go
    rw [PutUnit.messageEnd]
    split
    · exact (u.flush_takesAll (r := { r' with unit := u.beginEnd r'.unit j.mel })
        (u.offLe_of_zero (hu.pendOff_beginEnd _ _)) (hu.length_le _) hone).1
    · rfl
  cases hi : u.idle r.unit with
  | true =>
    rw [PutUnit.run, if_pos hi]
    exact hprocess r hi (takesAll_mono h (Nat.le_succ _))
  | false =>
    obtain ⟨hgo, htail⟩ := u.flush_takesAll (j := j) (k := need + 1) hoff (hu.length_le _) h
    obtain ⟨-, -, hunit, -⟩ := hlawful.flush j hi
    simp only [PutUnit.run, hi, Bool.false_eq_true, if_false]
    rcases hres : u.flush j r with ⟨f, r'⟩
    rw [hres] at hgo htail hunit
    obtain rfl : f = .go := hgo
    have hidle : u.idle r'.unit = true := hunit rfl ▸ hlawful.idle_settled _
    cases u.endsMessage r.unit with
    | true => rfl
    | false => exact hprocess r' hidle htail

/-- A put that completes a pending message end of which the sink takes the rest next (R197). -/
theorem PutUnit.Lawful.run_of_endPending_taken (hu : u.Lawful) {body : PutJob → PutRun U → Flow × PutRun U}
    (hx : EndPending u r.unit) (hoff : u.OffLe r.unit)
    (hnext : (u.pending r.unit).length - u.pendOff r.unit ≤ r.port.answers.headD (j.sink r.port.drawn)) :
    (u.run body j r).1 = .go ∧ (u.run body j r).2.unit = u.complete r.unit ∧ (u.run body j r).2.pos = r.pos ∧
      streamOf (u.run body j r).2.port.history =
        streamOf r.port.history ++ owed (u.pending r.unit) (u.pendMel r.unit) (u.pendOff r.unit) := by
  obtain ⟨hgo, -⟩ := u.flush_go hoff hnext
  obtain ⟨⟨es, heq, hes⟩, -, hunit, -⟩ := hu.flush j hx.1
  have hidle : u.idle (u.flush j r).2.unit = true := hunit hgo ▸ hu.idle_settled _
  rw [u.owes_of_idle hidle, List.append_nil, u.owes_of_pending hx.1] at hes
  rw [u.run_of_endPending hx]
  exact ⟨hgo, (hunit hgo).trans (u.settled_of_pending hx.1), u.flush_pos j r, by rw [heq, streamOf_append, hes]⟩

/-- A codec's loop uses up no more than one answer for each byte. -/
theorem PutUnit.Eats.loop_go {loop : PutJob → Nat → PutRun U → Flow × PutRun U} {eat : U → Byte → U}
    (he : u.Eats loop eat) (hu : u.EmitsUpTo size)
    (heat : ∀ x v, u.idle x = true → u.idle (eat x v) = false → u.pendOff (eat x v) = 0) (count : Nat)
    (hi : u.idle r.unit = true) (h : TakesAll r.port (count + k) size) :
    (loop j count r).1 = .go ∧ TakesAll (loop j count r).2.port k size := by
  have hnext {count : Nat} {r : PutRun U} (hi : u.idle r.unit = true) (hpending : u.idle (eatNext eat j r).unit = false)
      (h : TakesAll r.port (count + 1 + k) size) :
      (u.flush j (eatNext eat j r)).1 = .go ∧ TakesAll (u.flush j (eatNext eat j r)).2.port (count + k) size :=
    u.flush_takesAll (r := eatNext eat j r) (u.offLe_of_zero (heat _ _ hi hpending)) (hu.length_le _)
      (takesAll_mono h (by omega))
  revert h
  refine he.induct (j := j) (M := fun count r res => TakesAll r.port (count + k) size → res.1 = .go ∧ TakesAll res.2.port k size)
    (fun r _ h => ?zero) (fun count r res _ _ ih h => ?room) (fun count r r' res hi hpending hres _ ih h => ?flushed)
    (fun count r f r' hi hpending hres hf h => ?unflushed) count r hi
  case zero => exact ⟨rfl, takesAll_mono h (by omega)⟩
  case room => exact ih (takesAll_mono h (by omega))
  case flushed =>
    obtain ⟨-, htail⟩ := hnext hi hpending h
    rw [hres] at htail
    exact ih htail
  case unflushed =>
    obtain ⟨hgo, -⟩ := hnext hi hpending h
    rw [hres] at hgo
    exact absurd hgo hf

end

end Sys2Proof.Machine
end

section
/-! SUPPORT. The three units against a sink that takes what it is offered (spec/45_basen_encoder.md R212,
spec/46_basen_decoder.md R232, spec/47_grouper.md R251): every put of a legal unit comes to its end. -/

namespace Sys2Proof.Machine

open Sys2Proof.Statements

/-! ### The codecs -/

theorem encoderUnit_emitsUpTo : encoderUnit.EmitsUpTo 8 where
  length_le e := by simp [encoderUnit]
  pendOff_beginEnd _ _ := rfl

theorem decoderUnit_emitsUpTo : decoderUnit.EmitsUpTo 7 where
  length_le d := by simp [decoderUnit]
  pendOff_beginEnd _ _ := rfl

/-- A unit that a property is kept by has its offset inside its pending emission, and no offset when it is idle. -/
theorem Encoder.Inv.offLe {e : Encoder} (h : e.Inv) (hv : e.valid = true) : encoderUnit.OffLe e := by
  rw [PutUnit.OffLe, Encoder.Legal.pending_length ⟨h, hv⟩]
  exact h.pending.2.1

theorem Decoder.Inv.offLe {d : Decoder} (h : d.Inv) (hv : d.valid = true) : decoderUnit.OffLe d := by
  rw [PutUnit.OffLe, Decoder.Legal.pending_length ⟨h, hv⟩]
  exact h.pending.2.1

section
variable {s : State} {n : BitVec 4} {k : Bool} {m : Byte}

theorem State.encoderRun_go (h : (s.encoder n).Inv) (hv : (s.encoder n).valid = true)
    (htakes : TakesAll (s.portE n) (s.len3 + 2) 8) : (s.encoderRun n k m).1 = .go := by
  refine encoderUnit_emitsUpTo.run_go (need := s.len3) (fun r hi hr => ?_) encoderUnit_lawful (h.offLe hv) htakes
  refine encoderUnit_eats.loop_go encoderUnit_emitsUpTo (fun e v hi hpending => ?_) _ hi
    (takesAll_mono hr (Nat.add_le_add_right (Nat.sub_le _ _) 1))
  rcases Encoder.eat_cases ((encoderUnit_idle_iff e).mp hi) v with ⟨-, heq, -⟩ | ⟨-, -, hidle⟩
  · rw [heq]
    rfl
  · exact absurd hidle ((encoderUnit_idle_eq_false_iff _).mp hpending)

theorem State.decoderRun_go (h : (s.decoder n).Inv) (hv : (s.decoder n).valid = true)
    (htakes : TakesAll (s.portD n) (s.len3 + 2) 7) : (s.decoderRun n k m).1 = .go := by
  refine decoderUnit_emitsUpTo.run_go (need := s.len3) (fun r hi hr => ?_) decoderUnit_lawful (h.offLe hv) htakes
  refine decoderUnit_eats.loop_go decoderUnit_emitsUpTo (fun d c hi hpending => ?_) _ hi
    (takesAll_mono hr (Nat.add_le_add_right (Nat.sub_le _ _) 1))
  have hne := (decoderUnit_idle_eq_false_iff _).mp hpending
  rcases Decoder.eat_cases ((decoderUnit_idle_iff d).mp hi) c rfl with ⟨-, -, hidle⟩ | ⟨-, -, heq, -⟩ | ⟨-, -, -, hidle⟩
  · exact absurd hidle hne
  · rw [heq]
    rfl
  · exact absurd hidle hne

end

/-! ### The Grouper -/

theorem grouperUnit_emitsUpTo (n : Nat) : grouperUnit.EmitsUpTo (n + 255) where
  length_le g := by
    show g.pendingBytes.length ≤ _
    unfold Grouper.pendingBytes
    split <;> simp
  pendOff_beginEnd _ _ := rfl

theorem Grouper.Inv.offLe {g : Grouper} (h : g.Inv) : grouperUnit.OffLe g := by
  cases hv : g.valid with
  | false =>
    rw [h.unconfigured hv]
    exact Nat.zero_le _
  | true =>
    cases hf : g.fsm with
    | idle => exact grouperUnit.offLe_of_zero (h.idlePending hf).1
    | pendSep | pendTerm =>
      exact (grouperUnit_keeps _).pendOff g ⟨h, hv, rfl⟩ ((grouperUnit_idle_eq_false_iff g).mpr (by simp [hf]))

/-- An answer that covers a chunk forwards all of it. -/
theorem forwardLoop_of_takesAll (j : PutJob) (drawn t : Nat) (ts : List Nat) (h : List Event) (left : Nat) (g : Grouper)
    (pos : Nat) (ht : left ≤ t) :
    (forwardLoop j drawn (t :: ts) h left g pos).1 = .go ∧ (forwardLoop j drawn (t :: ts) h left g pos).2.port.answers = ts := by
  have hall : takenOf t (j.mem.readN (j.base + pos) left) = left := by simp [takenOf, ht]
  simp [forwardLoop, hall]

section
variable {j : PutJob} {r : PutRun Grouper} {k size : Nat}

theorem forwardData_takesAll {m : Nat} (hm : m ≤ size) (h : TakesAll r.port (k + 1) size) :
    (forwardData j m r).1 = .go ∧ TakesAll (forwardData j m r).2.port k size := by
  have htail := takesAll_tail (p' := (forwardData j m r).2.port) h
  have hnext := takesAll_next h 0
  have hlen := h.1
  rw [forwardData] at htail ⊢
  cases ha : r.port.answers with
  | nil => simp [ha] at hlen
  | cons t ts =>
    rw [ha] at hnext htail
    obtain ⟨hgo, hanswers⟩ := forwardLoop_of_takesAll j r.port.drawn t ts r.port.history m r.unit r.pos (hm.trans hnext)
    exact ⟨hgo, htail hanswers⟩

theorem separate_takesAll (hu : grouperUnit.EmitsUpTo size) (h : TakesAll r.port (k + 1) size) :
    (separate j r).1 = .go ∧ TakesAll (separate j r).2.port k size := by
  unfold separate
  split
  · exact grouperUnit.flush_takesAll (r := { r with unit := r.unit.openSeparator }) (grouperUnit.offLe_of_zero rfl)
      (hu.length_le _) h
  · exact ⟨rfl, takesAll_mono h (Nat.le_succ k)⟩

/-- A pass over a group uses up no more than two answers. -/
theorem groupLoop_go (hu : grouperUnit.EmitsUpTo size) (hsize : j.n ≤ size) (fuel : Nat)
    (h : TakesAll r.port (2 * fuel + k) size) :
    (groupLoop j fuel r).1 = .go ∧ TakesAll (groupLoop j fuel r).2.port k size := by
  induction fuel generalizing r with
  | zero => exact ⟨rfl, takesAll_mono h (by omega)⟩
  | succ fuel ih =>
    by_cases hlt : r.pos < j.n
    · obtain ⟨hgo, hsep⟩ := separate_takesAll (j := j) (k := 2 * fuel + k + 1) hu (takesAll_mono h (by omega))
      rcases hs : separate j r with ⟨f, r'⟩
      rw [hs] at hgo hsep
      obtain rfl : f = .go := hgo
      have hchunk : chunkLength j r' ≤ size := by rw [chunkLength]; omega
      obtain ⟨hgo', hfwd⟩ := forwardData_takesAll (j := j) (k := 2 * fuel + k) hchunk hsep
      rcases hf : forwardData j (chunkLength j r') r' with ⟨f', r''⟩
      rw [hf] at hgo' hfwd
      obtain rfl : f' = .go := hgo'
      rw [groupLoop_of_forwarded hlt hs hf]
      exact ih hfwd
    · rw [groupLoop_of_end hlt]
      exact ⟨rfl, takesAll_mono h (by omega)⟩

theorem grouperBody_go (hu : grouperUnit.EmitsUpTo size) (hsize : j.n ≤ size) (h : TakesAll r.port (2 * j.n + 1) size) :
    (grouperBody j r).1 = .go ∧ TakesAll (grouperBody j r).2.port 1 size := by
  unfold grouperBody
  split
  · split
    · exact forwardData_takesAll (by omega) (takesAll_mono h (by omega))
    · exact ⟨rfl, takesAll_mono h (by omega)⟩
  · exact groupLoop_go hu hsize _ (takesAll_mono h (by omega))

end

theorem State.grouperRun_go {s : State} {n : BitVec 4} {k : Bool} {m : Byte} (h : (s.grouper n).Inv)
    (htakes : TakesAll (s.portG n) (2 * s.len3 + 2) (s.len3 + 255)) : (s.grouperRun n k m).1 = .go :=
  (grouperUnit_emitsUpTo s.len3).run_go (need := 2 * s.len3)
    (fun _ _ hr => grouperBody_go (j := s.putJob .grouper n k m) (grouperUnit_emitsUpTo s.len3) (Nat.le_add_right s.len3 255) hr)
    grouperUnit_lawful h.offLe htakes

/-! ### Where a put that goes through leaves its cursor and its unit -/

@[simp] theorem encoder_endPending_iff (e : Encoder) : EndPending encoderUnit e ↔ e.fsm = .pendEom :=
  ⟨fun h => beq_iff_eq.mp h.2, fun h => ⟨(encoderUnit_idle_eq_false_iff e).mpr (by simp [h]), beq_iff_eq.mpr h⟩⟩

@[simp] theorem decoder_endPending_iff (d : Decoder) : EndPending decoderUnit d ↔ d.fsm = .pendEom :=
  ⟨fun h => beq_iff_eq.mp h.2, fun h => ⟨(decoderUnit_idle_eq_false_iff d).mpr (by simp [h]), beq_iff_eq.mpr h⟩⟩

@[simp] theorem grouper_endPending_iff (g : Grouper) : EndPending grouperUnit g ↔ g.fsm = .pendTerm :=
  ⟨fun h => beq_iff_eq.mp h.2, fun h => ⟨(grouperUnit_idle_eq_false_iff g).mpr (by simp [h]), beq_iff_eq.mpr h⟩⟩

/-- The residual of a put that has consumed nothing or all. -/
theorem sub_ite_zero_self {p : Prop} [Decidable p] (n : Nat) : (n - if p then 0 else n) = if p then n else 0 := by
  split <;> simp

section
variable {s : State} {n : BitVec 4} {k : Bool} {m : Byte}

theorem State.encoderRun_end (hpos : s.latch.pos = 0) (hgo : (s.encoderRun n k m).1 = .go) :
    (s.encoderRun n k m).2.unit.fsm = .idle ∧
      s.len3 - (s.encoderRun n k m).2.pos = if (s.encoder n).fsm = .pendEom then s.len3 else 0 := by
  obtain ⟨hidle, hend, -⟩ := encoderUnit_streams.run_go (r := ⟨s.encoder n, s.portE n, s.latch.pos⟩) trivial (by simp [hpos]) hgo
  simp only [encoder_endPending_iff, hpos] at hend
  exact ⟨(encoderUnit_idle_iff _).mp hidle, by rw [State.encoderRun, hpos, hend]; exact sub_ite_zero_self s.len3⟩

theorem State.decoderRun_end (hpos : s.latch.pos = 0) (hgo : (s.decoderRun n k m).1 = .go) :
    (s.decoderRun n k m).2.unit.fsm = .idle ∧
      s.len3 - (s.decoderRun n k m).2.pos = if (s.decoder n).fsm = .pendEom then s.len3 else 0 := by
  obtain ⟨hidle, hend, -⟩ := decoderUnit_streams.run_go (r := ⟨s.decoder n, s.portD n, s.latch.pos⟩) trivial (by simp [hpos]) hgo
  simp only [decoder_endPending_iff, hpos] at hend
  exact ⟨(decoderUnit_idle_iff _).mp hidle, by rw [State.decoderRun, hpos, hend]; exact sub_ite_zero_self s.len3⟩

theorem State.grouperRun_end (h : (s.grouper n).Inv) (hpos : s.latch.pos = 0) (hgo : (s.grouperRun n k m).1 = .go) :
    (s.grouperRun n k m).2.unit.fsm = .idle ∧
      s.len3 - (s.grouperRun n k m).2.pos = if (s.grouper n).fsm = .pendTerm then s.len3 else 0 := by
  obtain ⟨hidle, hend, -⟩ := grouperUnit_streams.run_go (r := ⟨s.grouper n, s.portG n, s.latch.pos⟩) h.counterLe
    (by simp [hpos]) hgo
  simp only [grouper_endPending_iff, hpos] at hend
  exact ⟨(grouperUnit_idle_iff _).mp hidle, by rw [State.grouperRun, hpos, hend]; exact sub_ite_zero_self s.len3⟩

end

/-! ### The end of a message, completed alone (R197) -/

/-- The bytes of the pending terminator of a legal Grouper (R45). -/
theorem Grouper.pendingBytes_of_pendTerm {g : Grouper} (hf : g.fsm = .pendTerm) :
    g.pendingBytes = g.term.toList.take g.termLen := by simp [Grouper.pendingBytes, hf]

theorem Grouper.term_length {g : Grouper} (h : g.Inv) : (g.term.toList.take g.termLen).length = g.termLen := by
  simpa using h.strings.2

theorem Grouper.sep_length {g : Grouper} (h : g.Inv) : (g.sep.toList.take g.sepLen).length = g.sepLen := by
  simpa using h.strings.1

end Sys2Proof.Machine
end

section
/-! PROOF. Completed puts (spec/44_filter_interface.md R196 to R198). -/

namespace Sys2Proof.Proofs

open Sys2Proof.Machine Sys2Proof.Statements

/-- Settles O43: one answer for the pending emission, one for each byte and one for the message end are enough, and a put
that goes through has read all its input unless it has completed a pending message end. -/
theorem bencPutCompletes : Obligations.BencPutCompletes := by
  intro n k m s hn hs hpos hv hinv hfits htakes
  have hgo := s.encoderRun_go (k := k) (m := m) hinv hv htakes
  obtain ⟨hidle, hresidual⟩ := s.encoderRun_end hpos hgo
  obtain ⟨t, hexec, hframe, hresult, hunit, -⟩ := exec_bencPut hn hs hv hfits (by rw [hgo]; nofun)
  exact ⟨t, hexec, by rwa [hgo] at hframe, hresult.trans hresidual, by rw [hunit, hidle]⟩

/-- Settles O46: as for the encoder. -/
theorem bdecPutCompletes : Obligations.BdecPutCompletes := by
  intro n k m s hn hs hpos hv hinv hfits htakes
  have hgo := s.decoderRun_go (k := k) (m := m) hinv hv htakes
  obtain ⟨hidle, hresidual⟩ := s.decoderRun_end hpos hgo
  obtain ⟨t, hexec, hframe, hresult, hunit, -⟩ := exec_bdecPut hn hs hv hfits (by rw [hgo]; nofun)
  exact ⟨t, hexec, by rwa [hgo] at hframe, hresult.trans hresidual, by rw [hunit, hidle]⟩

/-- Settles O50: each pass over a group needs no more than two answers and forwards at least one byte. -/
theorem grpPutCompletes : Obligations.GrpPutCompletes := by
  intro n k m s hn hs hpos hv hinv hfits htakes
  have hgo := s.grouperRun_go (k := k) (m := m) hinv htakes
  obtain ⟨hidle, hresidual⟩ := s.grouperRun_end hinv hpos hgo
  obtain ⟨t, hexec, hframe, hresult, hunit, -⟩ := exec_grpPut hn hs hv hfits (by rw [hgo]; nofun)
  exact ⟨t, hexec, by rwa [hgo] at hframe, hresult.trans hresidual, by rw [hunit, hidle]⟩

/-- Settles O36: such a put is the flushing of the pending emission and nothing else. -/
theorem pendingMessageEndIsCompletedAlone : Obligations.PendingMessageEndIsCompletedAlone := by
  intro n k m s hs hpos hfits
  refine ⟨fun e hn he hv hinv hf hnext => ?encoder, fun d hn hd hv hinv hf hnext => ?decoder,
    fun g hn hg hv hinv hf hnext => ?grouper⟩
  case encoder =>
    subst he
    obtain ⟨hgo, hunit, hcursor, hstream⟩ := encoderUnit_lawful.run_of_endPending_taken (body := encoderBody)
      (j := s.putJob .encoder n k m) (r := ⟨s.encoder n, s.portE n, s.latch.pos⟩) ((encoder_endPending_iff _).mpr hf)
      (hinv.offLe hv) (by rwa [Encoder.Legal.pending_length ⟨hinv, hv⟩])
    rw [← State.encoderRun] at hgo hunit hcursor hstream
    obtain ⟨t, hexec, hframe, hresult, htunit, htport⟩ := exec_bencPut (k := k) (m := m) hn hs hv hfits (by rw [hgo]; nofun)
    refine ⟨t, hexec, by rw [hframe, hgo]; rfl, by rw [hresult, hcursor, hpos]; rfl, htunit.trans hunit, ?_⟩
    rw [htport, hstream, List.append_assoc]
    rfl
  case decoder =>
    subst hd
    obtain ⟨hgo, hunit, hcursor, hstream⟩ := decoderUnit_lawful.run_of_endPending_taken (body := decoderBody)
      (j := s.putJob .decoder n k m) (r := ⟨s.decoder n, s.portD n, s.latch.pos⟩) ((decoder_endPending_iff _).mpr hf)
      (hinv.offLe hv) (by rwa [Decoder.Legal.pending_length ⟨hinv, hv⟩])
    rw [← State.decoderRun] at hgo hunit hcursor hstream
    obtain ⟨t, hexec, hframe, hresult, htunit, htport⟩ := exec_bdecPut (k := k) (m := m) hn hs hv hfits (by rw [hgo]; nofun)
    refine ⟨t, hexec, by rw [hframe, hgo]; rfl, by rw [hresult, hcursor, hpos]; rfl, htunit.trans hunit, ?_⟩
    rw [htport, hstream, List.append_assoc]
    rfl
  case grouper =>
    subst hg
    have hpending : grouperUnit.pending (s.grouper n) = _ := Grouper.pendingBytes_of_pendTerm hf
    obtain ⟨hgo, hunit, hcursor, hstream⟩ := grouperUnit_lawful.run_of_endPending_taken (body := grouperBody)
      (j := s.putJob .grouper n k m) (r := ⟨s.grouper n, s.portG n, s.latch.pos⟩) ((grouper_endPending_iff _).mpr hf)
      hinv.offLe (by rwa [hpending, Grouper.term_length hinv])
    rw [← State.grouperRun] at hgo hunit hcursor hstream
    obtain ⟨t, hexec, hframe, hresult, htunit, htport⟩ := exec_grpPut (k := k) (m := m) hn hs hv hfits (by rw [hgo]; nofun)
    refine ⟨t, hexec, by rw [hframe, hgo]; rfl, by rw [hresult, hcursor, hpos]; rfl, htunit.trans hunit, ?_⟩
    rw [htport, hstream, hpending, List.append_assoc]
    rfl

end Sys2Proof.Proofs
end

section
/-! SUPPORT. Stalls (spec/44_filter_interface.md R194): a put that is not blocking ends on the first offer that its sink
does not take whole, with that emission pending. -/

namespace Sys2Proof.Machine

open Sys2Proof.Statements

/-! ### Where a put stops -/

section
variable {U : Type} {u : PutUnit U} {body : PutJob → PutRun U → Flow × PutRun U} {j : PutJob} {r r' : PutRun U} {f : Flow}

theorem PutUnit.run_of_flush_stopped (hi : u.idle r.unit = false) (h : u.flush j r = (f, r')) (hf : f ≠ .go) :
    u.run body j r = (f, r') := by
  simp only [PutUnit.run, hi, h, Bool.false_eq_true, if_false]

theorem PutUnit.run_of_body_stopped (hi : u.idle r.unit = true) (h : body j r = (f, r')) (hf : f ≠ .go) :
    u.run body j r = (f, r') := by
  simp only [PutUnit.run, hi, PutUnit.process, h, if_true]

theorem PutUnit.run_of_body_go (hi : u.idle r.unit = true) (h : body j r = (.go, r')) :
    u.run body j r = u.messageEnd j r' := by
  simp only [PutUnit.run, hi, PutUnit.process, h, if_true]

/-- A pending emission of which the sink takes `a` bytes next, fewer than all, stalls with `a` more bytes taken. -/
theorem PutUnit.flush_stall (hj : j.blocking = false) {a : Nat} (ha : r.port.answers.headD (j.sink r.port.drawn) = a)
    {x : List Byte} (hx : (u.pending r.unit).drop (u.pendOff r.unit) = x) (hlt : a < x.length) :
    ∃ p, u.flush j r = (.stall, ⟨u.setPendOff r.unit (u.pendOff r.unit + a), p, r.pos⟩) ∧
      p.history = r.port.history ++ [.offer x (u.pendMel r.unit) false a] := by
  subst hx
  obtain ⟨ts, drawn, hemit⟩ := emit_nonblocking_stall (u.pendMel r.unit) ha hlt
  refine ⟨⟨_, ts, drawn⟩, ?_, rfl⟩
  rw [u.flush_spec, hj, hemit]
  rfl

/-- The same of an emission that has not been offered yet. -/
theorem PutUnit.flush_stall_whole (hj : j.blocking = false) {a : Nat}
    (ha : r.port.answers.headD (j.sink r.port.drawn) = a) (hoff : u.pendOff r.unit = 0)
    {x : List Byte} (hx : u.pending r.unit = x) (hlt : a < x.length) :
    ∃ p, u.flush j r = (.stall, ⟨u.setPendOff r.unit a, p, r.pos⟩) ∧
      p.history = r.port.history ++ [.offer x (u.pendMel r.unit) false a] := by
  have hstall := u.flush_stall hj ha (x := x) (by rw [hoff, List.drop_zero, hx]) hlt
  rwa [hoff, Nat.zero_add] at hstall

theorem PutUnit.messageEnd_eq_flush (hmel : 1 ≤ j.mel) :
    u.messageEnd j r = u.flush j { r with unit := u.beginEnd r.unit j.mel } := if_pos hmel

end

/-! ### The Grouper -/

section
variable {j : PutJob} {r : PutRun Grouper}

/-- A chunk of which the sink takes `a` bytes next, fewer than all: those are consumed and counted (R252). -/
theorem forwardData_stall (hj : j.blocking = false) {a m : Nat} (ha : r.port.answers.headD (j.sink r.port.drawn) = a)
    (hlt : a < m) : ∃ p, forwardData j m r = (.stall, ⟨r.unit.count a, p, r.pos + a⟩) ∧
      p.history = r.port.history ++ [.offer (j.mem.readN (j.base + r.pos) m) 0 false a] := by
  obtain ⟨g, ⟨h, ts, drawn⟩, pos⟩ := r
  have htaken : takenOf a (j.mem.readN (j.base + pos) m) = a := by simp [takenOf, hlt.le]
  cases ts with
  | nil =>
    obtain rfl : j.sink drawn = a := ha
    exact ⟨_, by simp only [forwardData, forwardLoop, htaken, if_neg hlt.ne, hj, unfinished]; rfl, rfl⟩
  | cons t ts =>
    obtain rfl : t = a := ha
    exact ⟨_, by simp only [forwardData, forwardLoop, htaken, if_neg hlt.ne, hj]; rfl, rfl⟩

theorem separate_of_room (h : r.unit.counter ≠ r.unit.groupSize.toNat) : separate j r = (.go, r) := if_neg h

theorem separate_of_full (h : r.unit.counter = r.unit.groupSize.toNat) :
    separate j r = grouperUnit.flush j { r with unit := r.unit.openSeparator } := if_pos h

theorem grouperBody_of_grouping (h : 0 < r.unit.groupSize.toNat) : grouperBody j r = groupLoop j (j.n - r.pos) r :=
  if_neg (Nat.ne_of_gt h)

theorem grouperBody_of_end (h : ¬r.pos < j.n) : grouperBody j r = (.go, r) := by
  unfold grouperBody
  rw [if_neg h, groupLoop_of_end h, ite_self]

/-- The first chunk of an idle Grouper's input, with no separator before it (R251). -/
theorem grouperBody_of_room {f : Flow} {r' : PutRun Grouper} (hn : r.pos < j.n)
    (hroom : r.unit.groupSize.toNat = 0 ∨ r.unit.counter < r.unit.groupSize.toNat)
    (h : forwardData j (if r.unit.groupSize.toNat = 0 then j.n - r.pos else chunkLength j r) r = (f, r')) (hf : f ≠ .go) :
    grouperBody j r = (f, r') := by
  by_cases hzero : r.unit.groupSize.toNat = 0
  · rw [if_pos hzero] at h
    rw [grouperBody, if_pos hzero, if_pos hn, h]
  · rw [if_neg hzero] at h
    have hlt := hroom.resolve_left hzero
    rw [grouperBody_of_grouping (Nat.pos_of_ne_zero hzero), show j.n - r.pos = j.n - r.pos - 1 + 1 by omega]
    exact groupLoop_of_unforwarded hn (separate_of_room hlt.ne) h hf

/-- The separator of a full group before the input (R253). -/
theorem grouperBody_of_full {f : Flow} {r' : PutRun Grouper} (hn : r.pos < j.n) (hpos : 0 < r.unit.groupSize.toNat)
    (hfull : r.unit.counter = r.unit.groupSize.toNat)
    (h : grouperUnit.flush j { r with unit := r.unit.openSeparator } = (f, r')) (hf : f ≠ .go) :
    grouperBody j r = (f, r') := by
  rw [grouperBody_of_grouping hpos, show j.n - r.pos = j.n - r.pos - 1 + 1 by omega]
  exact groupLoop_of_unseparated hn ((separate_of_full hfull).trans h) hf

end

theorem Grouper.count_eq (g : Grouper) (k : Nat) :
    g.count k = { g with counter := if g.groupSize.toNat = 0 then g.counter else g.counter + k } := by
  unfold Grouper.count
  split
  · rw [if_neg (by omega)]
  · rw [if_pos (by omega)]

/-- A `GRP_PUT` that stalls, by how it runs. -/
theorem exec_grpPut_stall {s : State} {n : BitVec 4} {m : Byte} {g : Grouper} {p : Port} {pos : Nat}
    (hn : n.toNat < Config.params.nGrp) (hs : Started s) (hv : (s.grouper n).valid = true) (hfits : Fits s.addr0 s.len3)
    (h : s.grouperRun n false m = (.stall, ⟨g, p, pos⟩)) :
    ∃ t, exec (.grpPut n false m) s = .next t ∧ t.status = endedStalled s ∧ t.result.toNat = s.len3 - pos ∧
      t.grouper n = g ∧ (t.portG n).history = p.history := by
  obtain ⟨t, hexec, hframe, hresult, hunit, hport⟩ := exec_grpPut (k := false) (m := m) hn hs hv hfits (by rw [h]; nofun)
  rw [h] at hframe hresult hunit hport
  exact ⟨t, hexec, congrArg State.status hframe, hresult, hunit, congrArg Port.history hport⟩

end Sys2Proof.Machine
end

section
/-! PROOF. Stalls of the Grouper (spec/44_filter_interface.md R194, spec/47_grouper.md R251 to R254). -/

namespace Sys2Proof.Proofs

open Sys2Proof.Machine Sys2Proof.Statements

/-- Settles O35: in each case the put comes to that offer first, and stops on it. -/
theorem grouperPutStalls : Obligations.GrouperPutStalls := by
  intro n m s hn hs hpos hfits hv g a size
  have hrun : s.grouperRun n false m =
      grouperUnit.run grouperBody (s.putJob .grouper n false m) ⟨g, s.portG n, 0⟩ := by rw [State.grouperRun, hpos]
  refine ⟨?pending, ?chunk, ?separator, ?terminator⟩
  case pending =>
    intro hf d hlt
    have hd : (grouperUnit.pending g).drop (grouperUnit.pendOff g) = d := by
      show g.pendingBytes.drop g.pendOff = d
      cases hphase : g.fsm <;> simp_all [Grouper.pendingBytes, d]
    obtain ⟨p, hflush, hp⟩ := grouperUnit.flush_stall (j := s.putJob .grouper n false m) (r := ⟨g, s.portG n, 0⟩) rfl rfl hd hlt
    obtain ⟨t, hexec, hstatus, hresult, hunit, hport⟩ := exec_grpPut_stall hn hs hv hfits
      (hrun.trans (PutUnit.run_of_flush_stopped ((grouperUnit_idle_eq_false_iff g).mpr hf) hflush nofun))
    exact ⟨t, hexec, hstatus, hresult, hunit, hport.trans hp⟩
  case chunk =>
    intro hf hroom chunk hlt
    have hn' : 0 < s.len3 := by
      have : chunk ≤ s.len3 := by
        show (if size = 0 then s.len3 else min s.len3 (size - g.counter)) ≤ s.len3
        split <;> omega
      omega
    obtain ⟨p, hfwd, hp⟩ := forwardData_stall (j := s.putJob .grouper n false m) (r := ⟨g, s.portG n, 0⟩) (m := chunk) rfl rfl hlt
    obtain ⟨t, hexec, hstatus, hresult, hunit, hport⟩ := exec_grpPut_stall hn hs hv hfits
      (hrun.trans (PutUnit.run_of_body_stopped ((grouperUnit_idle_iff g).mpr hf) (grouperBody_of_room hn' hroom hfwd nofun) nofun))
    rw [Nat.zero_add] at hresult
    exact ⟨t, hexec, hstatus, hresult, hunit.trans (g.count_eq a), hport.trans hp⟩
  case separator =>
    intro hinv hf hsize hfull hlen hlt
    obtain ⟨p, hflush, hp⟩ := grouperUnit.flush_stall_whole (j := s.putJob .grouper n false m)
      (r := ⟨g.openSeparator, s.portG n, 0⟩) rfl (a := a) rfl rfl (x := g.sep.toList.take g.sepLen) rfl (by rwa [Grouper.sep_length hinv])
    obtain ⟨t, hexec, hstatus, hresult, hunit, hport⟩ := exec_grpPut_stall hn hs hv hfits
      (hrun.trans (PutUnit.run_of_body_stopped ((grouperUnit_idle_iff g).mpr hf) (grouperBody_of_full hlen hsize hfull hflush nofun) nofun))
    exact ⟨t, hexec, hstatus, hresult, hunit, hport.trans hp⟩
  case terminator =>
    intro hinv hf hlen hmel hlt
    obtain ⟨p, hflush, hp⟩ := grouperUnit.flush_stall_whole (j := s.putJob .grouper n false m)
      (r := ⟨g.openEnd m.toNat, s.portG n, 0⟩) rfl (a := a) rfl rfl (x := g.term.toList.take g.termLen) rfl (by rwa [Grouper.term_length hinv])
    have hbody := grouperBody_of_end (j := s.putJob .grouper n false m) (r := ⟨g, s.portG n, 0⟩)
      (show ¬0 < s.len3 by omega)
    obtain ⟨t, hexec, hstatus, hresult, hunit, hport⟩ := exec_grpPut_stall hn hs hv hfits
      (hrun.trans ((PutUnit.run_of_body_go ((grouperUnit_idle_iff g).mpr hf) hbody).trans
        ((PutUnit.messageEnd_eq_flush hmel).trans hflush)))
    exact ⟨t, hexec, hstatus, BitVec.eq_of_toNat_eq (by rw [hresult, hlen]; rfl), hunit,
      hport.trans hp⟩

end Sys2Proof.Proofs
end

section
/-! SUPPORT. The buffers of the codecs as strings of bits (spec/45_basen_encoder.md R213, spec/46_basen_decoder.md R233): each
entry holds `b` bits, most significant first, the last one only its high ones; setting the next bit appends it. -/

namespace Sys2Proof.Machine

open Sys2Proof.Statements

/-! ### The bits of one entry -/

/-- The first `q` of the `b` low bits of a byte, most significant first. -/
def topBits (b q : Nat) (v : Byte) : List Bool := (List.range q).map fun k => v.getLsbD (b - 1 - k)

@[simp] theorem topBits_length (b q : Nat) (v : Byte) : (topBits b q v).length = q := by simp [topBits]

@[simp] theorem topBits_zero (b : Nat) (v : Byte) : topBits b 0 v = [] := rfl

section
variable {b q : Nat} {v : Byte}

theorem getLsbD_oneBit (bit : Bool) (k i : Nat) (hk : k < 8) :
    ((if bit then 1#8 else 0#8) <<< k).getLsbD i = (bit && decide (i = k)) := by
  cases bit
  · simp
  · by_cases hi : i < 8
    · simp only [if_true, BitVec.getLsbD_shiftLeft, hi, decide_true, Bool.true_and, BitVec.getLsbD_one]
      rcases Nat.lt_trichotomy i k with h | h | h
      · simp [h, h.ne]
      · simp [h]
      · simp [h.ne', show ¬i < k by omega, show i - k ≠ 0 by omega]
    · rw [BitVec.getLsbD_of_ge _ _ (by omega)]
      simp
      omega

/-- A bit below those that are filled is 0. -/
theorem getLsbD_of_mod (h : v.toNat % 2 ^ q = 0) {i : Nat} (hi : i < q) : v.getLsbD i = false := by
  have hmod : (v.toNat % 2 ^ q).testBit i = false := by rw [h, Nat.zero_testBit]
  rwa [Nat.testBit_mod_two_pow, decide_eq_true hi, Bool.true_and] at hmod

/-- The next bit of an entry set. -/
theorem topBits_setBit (hb : b ≤ 8) (hq : q < b) (hv : v.toNat % 2 ^ (b - q) = 0) (bit : Bool) :
    topBits b (q + 1) (v ||| ((if bit then 1#8 else 0#8) <<< (b - 1 - q))) = topBits b q v ++ [bit] := by
  rw [topBits, List.range_succ, List.map_append, topBits, List.map_singleton]
  congr 1
  · refine List.map_congr_left fun k hk => ?_
    rw [List.mem_range] at hk
    rw [BitVec.getLsbD_or, getLsbD_oneBit _ _ _ (by omega), decide_eq_false (by omega), Bool.and_false, Bool.or_false]
  · rw [BitVec.getLsbD_or, getLsbD_oneBit _ _ _ (by omega), getLsbD_of_mod hv (by omega)]
    simp

/-- The bits of an entry read as a number: its high part. -/
theorem foldl_topBits (hq : q ≤ b) (hv : v.toNat < 2 ^ b) :
    (topBits b q v).foldl (fun n x => 2 * n + x.toNat) 0 = v.toNat / 2 ^ (b - q) := by
  induction q with
  | zero => rw [topBits_zero, List.foldl_nil, Nat.sub_zero, Nat.div_eq_of_lt hv]
  | succ q ih =>
    rw [topBits, List.range_succ, List.map_append, List.foldl_append, ← topBits, ih (by omega)]
    simp only [List.map_cons, List.map_nil, List.foldl_cons, List.foldl_nil]
    rw [show b - q = b - (q + 1) + 1 by omega, show b - 1 - q = b - (q + 1) by omega, Nat.pow_succ, ← Nat.div_div_eq_div_mul]
    show 2 * (v.toNat / 2 ^ (b - (q + 1)) / 2) + (v.toNat.testBit (b - (q + 1))).toNat = _
    rw [Nat.toNat_testBit]
    omega

/-- A group of the bits of an entry whose other bits are 0 has the entry's value. -/
theorem groupValue_topBits (hq : q ≤ b) (hv : v.toNat < 2 ^ b) (hmod : v.toNat % 2 ^ (b - q) = 0) :
    groupValue b (topBits b q v) = v.toNat := by
  have hzeros (k n : Nat) : (List.replicate k false).foldl (fun n x => 2 * n + x.toNat) n = n * 2 ^ k := by
    induction k generalizing n with
    | zero => simp
    | succ k ih =>
      rw [List.replicate_succ, List.foldl_cons, ih]
      simp only [Bool.toNat_false, Nat.add_zero]
      rw [Nat.pow_succ]
      ring
  rw [groupValue, List.foldl_append, foldl_topBits hq hv, topBits_length, hzeros,
    Nat.div_mul_cancel (Nat.dvd_of_mod_eq_zero hmod)]

end

/-! ### The bits of a buffer -/

section
variable {n : Nat} {b : Nat} {buf : Vector Byte n} {p q : Nat}

/-- The bits of the first `p` entries of a buffer and the first `q` of the next. -/
def bufferBits (b : Nat) (buf : Vector Byte n) (p q : Nat) : List Bool :=
  ((List.range p).flatMap fun j => topBits b b (entry buf j 0)) ++ topBits b q (entry buf p 0)

theorem heldBits_eq_bufferBits (e : Encoder) : heldBits e = bufferBits e.b e.outBuf e.bytePos e.bitPos := rfl

theorem heldByteBits_eq_bufferBits (d : Decoder) : heldByteBits d = bufferBits 8 d.outBuf d.bytePos d.bitPos := rfl

theorem bufferBits_length (b : Nat) (buf : Vector Byte n) (p q : Nat) : (bufferBits b buf p q).length = p * b + q := by
  simp [bufferBits, List.length_flatMap]

/-- A whole entry is the next entry's beginning. -/
theorem bufferBits_whole (b : Nat) (buf : Vector Byte n) (p : Nat) : bufferBits b buf p b = bufferBits b buf (p + 1) 0 := by
  simp [bufferBits, List.range_succ]

/-- Setting the next bit of a buffer appends it. -/
theorem bufferBits_setBit (hb : b ≤ 8) (hq : q < b) (hp : p < n) (hmod : (entry buf p 0).toNat % 2 ^ (b - q) = 0) (bit : Bool) :
    bufferBits b (setEntry buf p (entry buf p 0 ||| ((if bit then 1#8 else 0#8) <<< (b - 1 - q)))) p (q + 1) =
      bufferBits b buf p q ++ [bit] := by
  rw [bufferBits, entry_setEntry_same _ _ _ _ hp, topBits_setBit hb hq hmod, ← List.append_assoc, bufferBits]
  congr 2
  refine List.flatMap_congr fun j hj => ?_
  rw [entry_setEntry_other _ _ _ _ _ (List.mem_range.mp hj).ne']

end

/-! ### Groups of bits -/

section
variable {α : Type}

theorem cut_nil (b k : Nat) : cut b k ([] : List α) = [] := by cases k <;> rfl

/-- Pieces of equal length and a shorter last one, put together and cut again. -/
theorem cut_flatten_append {b : Nat} (pieces : List (List α)) (last : List α) (hpieces : ∀ g ∈ pieces, g.length = b)
    (hlast : last.length < b) {k : Nat} (hk : (pieces.flatten ++ last).length ≤ k) :
    cut b k (pieces.flatten ++ last) = pieces ++ if last = [] then [] else [last] := by
  induction pieces generalizing k with
  | nil =>
    cases k with
    | zero =>
      obtain rfl : last = [] := List.eq_nil_of_length_eq_zero (by simpa using hk)
      rfl
    | succ k =>
      by_cases hnil : last = []
      · subst hnil
        rfl
      · simp only [List.flatten_nil, List.nil_append, cut, List.isEmpty_iff, hnil, if_false]
        rw [List.take_of_length_le hlast.le, List.drop_eq_nil_of_le hlast.le, cut_nil]
  | cons g pieces ih =>
    obtain ⟨hg, hrest⟩ := List.forall_mem_cons.mp hpieces
    rw [List.flatten_cons, List.append_assoc] at hk ⊢
    cases k with
    | zero => simp [hg] at hk; omega
    | succ k =>
      have hne : g ++ (pieces.flatten ++ last) ≠ [] := fun h => by
        rw [List.append_eq_nil_iff] at h
        rw [h.1] at hg
        simp at hg
        omega
      simp only [cut, List.isEmpty_iff, hne, if_false]
      rw [List.take_left' hg, List.drop_left' hg, ih hrest (by simp [hg] at hk ⊢; omega), List.cons_append]

end

section
variable {n : Nat} {b : Nat} {buf : Vector Byte n} {p q : Nat}

/-- The groups of a buffer's bits are its entries. -/
theorem cut_bufferBits (hq : q < b) : cut b (bufferBits b buf p q).length (bufferBits b buf p q) =
    (List.range p).map (fun j => topBits b b (entry buf j 0)) ++ if q = 0 then [] else [topBits b q (entry buf p 0)] := by
  have hcut := cut_flatten_append (b := b) ((List.range p).map fun j => topBits b b (entry buf j 0)) (topBits b q (entry buf p 0))
    (by simp) (by simpa using hq) (Nat.le_refl _)
  rw [← List.flatMap_def] at hcut
  have hnil : topBits b q (entry buf p 0) = [] ↔ q = 0 := by
    rw [← List.length_eq_zero_iff, topBits_length]
  simp only [hnil] at hcut
  exact hcut

/-- The first entries of a buffer. -/
theorem take_toList_eq_map_entry (buf : Vector Byte n) {k : Nat} (hk : k ≤ n) :
    buf.toList.take k = (List.range k).map fun j => entry buf j 0 := by
  refine List.ext_getElem (by simpa using hk) fun i h _ => ?_
  have hi : i < n := by simp at h; omega
  simp [entry, List.getD_eq_getElem?_getD, hi]

/-- The whole bytes of a decoder's bits are its whole entries (R234). -/
theorem wholeBytes_bufferBits (hq : q < 8) (hp : p ≤ n) : wholeBytes (bufferBits 8 buf p q) = buf.toList.take p := by
  have hlast : ((if q = 0 then [] else [topBits 8 q (entry buf p 0)]).filter fun g => g.length == 8) = [] := by
    split
    · rfl
    · simp [hq.ne]
  have hall : (((List.range p).map fun j => topBits 8 8 (entry buf j 0)).filter fun g => g.length == 8) =
      (List.range p).map fun j => topBits 8 8 (entry buf j 0) := List.filter_eq_self.mpr (by simp)
  rw [wholeBytes, cut_bufferBits hq, List.filter_append, hlast, hall, List.append_nil, List.map_map,
    take_toList_eq_map_entry buf hp]
  refine List.map_congr_left fun j _ => ?_
  rw [Function.comp_apply, groupValue_topBits (Nat.le_refl 8) (entry buf j 0).isLt (by simp [Nat.mod_one]),
    BitVec.ofNat_toNat, BitVec.setWidth_eq]

/-- The symbols of an encoder's bits are those of its entries, the partial one with its missing bits 0 (R214, R215). -/
theorem symbolsOfBits_bufferBits (alphabet : List Byte) (hq : q < b) (hlt : ∀ j, j < p → (entry buf j 0).toNat < 2 ^ b)
    (hpart : (entry buf p 0).toNat < 2 ^ b) (hmod : (entry buf p 0).toNat % 2 ^ (b - q) = 0) :
    symbolsOfBits b alphabet (bufferBits b buf p q) =
      (List.range (if 0 < q then p + 1 else p)).map fun j => alphabet.getD (entry buf j 0).toNat 0 := by
  have hall : ((List.range p).map fun j => topBits b b (entry buf j 0)).map (fun g => alphabet.getD (groupValue b g) 0) =
      (List.range p).map fun j => alphabet.getD (entry buf j 0).toNat 0 := by
    rw [List.map_map]
    refine List.map_congr_left fun j hj => ?_
    rw [Function.comp_apply, groupValue_topBits (Nat.le_refl b) (hlt j (List.mem_range.mp hj)) (by simp [Nat.mod_one])]
  rw [symbolsOfBits, cut_bufferBits hq, List.map_append, hall]
  by_cases hzero : q = 0
  · rw [if_pos hzero, if_neg (by omega), List.map_nil, List.append_nil]
  · rw [if_neg hzero, if_pos (Nat.pos_of_ne_zero hzero), List.range_succ, List.map_append, List.map_singleton,
      groupValue_topBits hq.le hpart hmod, List.map_singleton]

end

end Sys2Proof.Machine
end

section
/-! SUPPORT. What a codec holds while it eats its input (spec/45_basen_encoder.md R212 to R215, spec/46_basen_decoder.md R232
to R234): each byte's bits are appended, and the group that they fill comes out as the symbols or bytes of those bits. -/

namespace Sys2Proof.Machine

open Sys2Proof.Statements

/-! ### Packing (R213) -/

theorem heldBits_length (e : Encoder) : (heldBits e).length = e.cursor := by
  rw [heldBits_eq_bufferBits, bufferBits_length, Encoder.cursor]

theorem heldBits_packBit {e : Encoder} (h : e.Packing) (hb : e.b ≤ 8) (hp : e.bytePos < e.obs) (bit : Bool) :
    heldBits (packBit e bit) = heldBits e ++ [bit] := by
  have hset := bufferBits_setBit hb h.bitLt (hp.trans_le h.obsLe) h.partialMod bit
  rw [heldBits_eq_bufferBits e, ← hset]
  rcases packBit_cases e bit with ⟨hlast, heq⟩ | ⟨-, heq⟩ <;> rw [heldBits_eq_bufferBits, heq]
  · rw [hlast]
    exact (bufferBits_whole _ _ _).symm
  · rfl

/-- Bits that fit in the block are appended to those held. -/
theorem heldBits_packBits (bits : List Bool) {e : Encoder} (h : e.Packing) (hb : e.b ≤ 8)
    (hfit : e.cursor + bits.length ≤ e.obs * e.b) : heldBits (bits.foldl packBit e) = heldBits e ++ bits := by
  induction bits generalizing e with
  | nil => simp
  | cons x xs ih =>
    rw [List.length_cons] at hfit
    have hp : e.bytePos < e.obs := by
      refine Nat.lt_of_mul_lt_mul_right (a := e.b) ?_
      rw [Encoder.cursor] at hfit
      omega
    have hcur := packBit_cursor e x
    obtain ⟨buf, p, q, heq⟩ := packBit_frame e x
    have hframe : (packBit e x).b = e.b ∧ (packBit e x).obs = e.obs := by rw [heq]; exact ⟨rfl, rfl⟩
    rw [List.foldl_cons, ih (packBit_packing h x hp) (by rwa [hframe.1]) (by rw [hframe.1, hframe.2]; omega),
      heldBits_packBit h hb hp, List.append_assoc, List.singleton_append]

section
variable {e : Encoder}

theorem Encoder.Legal.bLe (h : e.Legal) : e.b ≤ 8 := by
  obtain ⟨-, h7, -⟩ := h.1.bits h.2
  omega

theorem heldBits_packByte (h : e.Legal) (hi : e.fsm = .idle) (v : Byte) :
    heldBits (packByte e v) = heldBits e ++ bitsOfByte v := by
  rw [packByte_eq_packBits]
  exact heldBits_packBits ([7, 6, 5, 4, 3, 2, 1, 0].map v.getLsbD) (h.packing hi) h.bLe (h.room hi)

@[simp] theorem bitsOfByte_length (v : Byte) : (bitsOfByte v).length = 8 := rfl

/-- The encoder `e'` is `e` but for the buffer and the cursor. -/
def Encoder.Packed (e e' : Encoder) : Prop := ∃ buf p q, e' = { e with outBuf := buf, bytePos := p, bitPos := q }

theorem Encoder.Packed.trans {e e' e'' : Encoder} (h : e.Packed e') (h' : e'.Packed e'') : e.Packed e'' := by
  obtain ⟨_, _, _, rfl⟩ := h
  obtain ⟨buf, p, q, rfl⟩ := h'
  exact ⟨buf, p, q, rfl⟩

/-- The end of a message opened, on an encoder that is `e` but for the buffer and the cursor. -/
theorem Encoder.Packed.openEnd {e' : Encoder} (h : e.Packed e') (mel : Nat) : ∃ buf p, e'.openEnd mel =
    { e with outBuf := buf, bytePos := p, bitPos := 0, fsm := .pendEom, pendLen := (e'.openEnd mel).pendLen, pendOff := 0,
             pendMel := mel - 1 } := by
  obtain ⟨_, _, _, rfl⟩ := h
  exact ⟨_, _, rfl⟩

/-- The cursor of an encoder with a byte packed, from the bits it holds. -/
theorem packByte_cursor (h : e.Legal) (hi : e.fsm = .idle) (v : Byte) : (packByte e v).cursor = (heldBits e).length + 8 := by
  rw [← heldBits_length, heldBits_packByte h hi, List.length_append, bitsOfByte_length]

/-- A byte that does not fill the block is packed and leaves the encoder idle. -/
theorem Encoder.eat_of_room (h : e.Legal) (hi : e.fsm = .idle) (v : Byte) (hlt : (heldBits e).length + 8 < e.obs * e.b) :
    (e.eat v).Legal ∧ (e.eat v).fsm = .idle ∧ e.Packed (e.eat v) ∧ heldBits (e.eat v) = heldBits e ++ bitsOfByte v := by
  have hcur := packByte_cursor h hi v
  obtain ⟨buf, p, q, heq, -⟩ := packByte_spec h hi v
  have hne : (packByte e v).bytePos ≠ (packByte e v).obs := fun hfull => by
    rw [Encoder.cursor, hfull, heq] at hcur
    simp only at hcur
    omega
  have heat : e.eat v = packByte e v := if_neg hne
  obtain ⟨hlegal, hidle⟩ := packByte_legal h hi v hne
  rw [heat]
  exact ⟨hlegal, hidle, ⟨buf, p, q, heq⟩, heldBits_packByte h hi v⟩

/-! ### Symbols (R214, R215) -/

theorem entry_translate (alphabet : Vector Byte 128) (buf : Vector Byte 8) {n : Nat} (hn : n ≤ 8) (j : Nat) :
    entry (translate alphabet n buf) j 0 = if j < n then entry alphabet (entry buf j 0).toNat 0 else entry buf j 0 := by
  induction n generalizing j with
  | zero => rfl
  | succ n ih =>
    have hsucc : translate alphabet (n + 1) buf =
        setEntry (translate alphabet n buf) n (entry alphabet (entry (translate alphabet n buf) n 0).toNat 0) := by
      rw [translate, List.range_succ, List.foldl_append, ← translate]
      rfl
    rw [hsucc, entry_setEntry, ih (by omega), ih (by omega), if_neg (Nat.lt_irrefl n)]
    rcases Nat.lt_trichotomy j n with hj | rfl | hj
    · rw [if_neg (by omega), if_pos hj, if_pos (by omega)]
    · rw [if_pos ⟨rfl, hn⟩, if_pos (by omega)]
    · rw [if_neg (by omega), if_neg (by omega), if_neg (by omega)]

theorem entry_padFrom (padByte : Byte) (start : Nat) (buf : Vector Byte 8) {stop : Nat} (hstop : stop ≤ 8) (j : Nat) :
    entry (padFrom padByte start stop buf) j 0 = if start ≤ j ∧ j < stop then padByte else entry buf j 0 := by
  have hloop (k : Nat) (hk : start + k ≤ 8) :
      entry ((List.range k).foldl (fun v j => setEntry v (start + j) padByte) buf) j 0 =
        if start ≤ j ∧ j < start + k then padByte else entry buf j 0 := by
    induction k with
    | zero => rw [if_neg (by omega)]; rfl
    | succ k ih =>
      rw [List.range_succ, List.foldl_append, List.foldl_cons, List.foldl_nil, entry_setEntry, ih (by omega)]
      by_cases hj : start + k = j
      · rw [if_pos ⟨hj, by omega⟩, if_pos (by omega)]
      · have hrange : (start ≤ j ∧ j < start + (k + 1)) ↔ (start ≤ j ∧ j < start + k) := by omega
        simp only [hj, false_and, if_false, hrange]
  by_cases hle : start ≤ stop
  · rw [padFrom, hloop (stop - start) (by omega), show start + (stop - start) = stop by omega]
  · rw [padFrom, show stop - start = 0 by omega, if_neg (by omega)]
    rfl

/-- The symbols of the first entries of a buffer. -/
theorem take_translate (alphabet : Vector Byte 128) (buf : Vector Byte 8) {n : Nat} (hn : n ≤ 8) :
    (translate alphabet n buf).toList.take n = (List.range n).map fun j => alphabet.toList.getD (entry buf j 0).toNat 0 := by
  rw [take_toList_eq_map_entry _ hn]
  refine List.map_congr_left fun j hj => ?_
  rw [entry_translate _ _ hn, if_pos (List.mem_range.mp hj)]
  rfl

/-- The same with padding after them. -/
theorem take_padFrom (alphabet : Vector Byte 128) (padByte : Byte) (buf : Vector Byte 8) {n stop : Nat} (hn : n ≤ stop)
    (hstop : stop ≤ 8) : (padFrom padByte n stop (translate alphabet n buf)).toList.take stop =
      ((List.range n).map fun j => alphabet.toList.getD (entry buf j 0).toNat 0) ++ List.replicate (stop - n) padByte := by
  obtain ⟨k, rfl⟩ := Nat.exists_eq_add_of_le hn
  rw [take_toList_eq_map_entry _ hstop, List.range_add, List.map_append, List.map_map, Nat.add_sub_cancel_left,
    ← take_translate _ _ (by omega), take_toList_eq_map_entry _ (by omega)]
  congr 1
  · refine List.map_congr_left fun j hj => ?_
    rw [entry_padFrom _ _ _ hstop, if_neg fun h => by rw [List.mem_range] at hj; omega]
  · refine (List.map_congr_left fun j hj => ?_).trans (by rw [List.map_const', List.length_range])
    rw [Function.comp_apply, entry_padFrom _ _ _ hstop, if_pos ⟨by omega, by rw [List.mem_range] at hj; omega⟩]

/-- A byte that fills the block leaves its symbols pending. -/
theorem Encoder.eat_of_full (h : e.Legal) (hi : e.fsm = .idle) (v : Byte) (hfull : (heldBits e).length + 8 = e.obs * e.b) :
    ∃ buf p q, e.eat v = { e with outBuf := buf, bytePos := p, bitPos := q, fsm := .pendBlock, pendLen := e.obs, pendOff := 0,
                                  pendMel := 0 } ∧
      buf.toList.take e.obs = symbolsOfBits e.b e.alphabet.toList (heldBits e ++ bitsOfByte v) := by
  have hcur := packByte_cursor h hi v
  have hheld := heldBits_packByte h hi v
  obtain ⟨buf, p, q, heq, hpacking, hp, -⟩ := packByte_spec h hi v
  unfold Encoder.eat
  rw [heq] at hcur hheld hpacking ⊢
  obtain ⟨-, hbit, hsymbols, hlt, hmod, -⟩ := hpacking
  simp only [Encoder.cursor] at hcur hbit hsymbols hlt hmod
  obtain ⟨rfl, rfl⟩ : p = e.obs ∧ q = 0 := by
    have hpobs : p = e.obs := by
      by_contra hne
      have hmul := Nat.mul_le_mul_right e.b (show p + 1 ≤ e.obs by omega)
      rw [Nat.add_mul] at hmul
      omega
    subst hpobs
    omega
  refine ⟨_, _, _, if_pos rfl, ?_⟩
  rw [← hheld, heldBits_eq_bufferBits, symbolsOfBits_bufferBits _ hbit hsymbols hlt hmod, if_neg (Nat.lt_irrefl 0)]
  exact take_translate _ _ h.obsLe

/-- The end of a message leaves the symbols of the bits held pending, padded if padding is on. -/
theorem Encoder.pending_openEnd (h : e.Legal) (hi : e.fsm = .idle) (mel : Nat) :
    encoderUnit.pending (e.openEnd mel) =
      padded e.padEn e.padByte e.obs (symbolsOfBits e.b e.alphabet.toList (heldBits e)) := by
  obtain ⟨hobs, hbit, hsymbols, hlt, hmod, -⟩ := h.packing hi
  have hpos := h.1.idleCursor hi h.2
  rw [heldBits_eq_bufferBits, symbolsOfBits_bufferBits _ hbit hsymbols hlt hmod, padded, List.length_map, List.length_range]
  show (e.openEnd mel).outBuf.toList.take (e.openEnd mel).pendLen = _
  simp only [Encoder.openEnd]
  have hcount : (if 0 < e.bitPos then e.bytePos + 1 else e.bytePos) ≤ e.obs := by split <;> omega
  generalize (if 0 < e.bitPos then e.bytePos + 1 else e.bytePos) = count at hcount ⊢
  cases e.padEn with
  | false => exact take_translate _ _ (n := count) (hcount.trans hobs)
  | true =>
    by_cases hzero : count = 0
    · subst hzero
      simp
    · have hpad : (e.obs - count % e.obs) % e.obs = e.obs - count := by
        rcases Nat.lt_or_eq_of_le hcount with hlt | rfl
        · rw [Nat.mod_eq_of_lt hlt, Nat.mod_eq_of_lt (by omega)]
        · simp
      simp only [Nat.pos_of_ne_zero hzero, decide_true, Bool.and_true, if_true, hpad]
      exact take_padFrom _ _ _ hcount hobs

end

/-! ### The input (R212, R232) -/

section
variable {U : Type} {u : PutUnit U} {loop : PutJob → Nat → PutRun U → Flow × PutRun U} {eat : U → Byte → U}
  {K : U → Prop} {held : U → List Bool} {bits : Byte → List Bool} {cap : Nat} {j : PutJob} {r : PutRun U}

/-- While a unit that `K` holds of has room for the bits of a byte, it eats the byte, holds those bits too, and `K`
holds of it again. -/
structure PutUnit.Holds (u : PutUnit U) (eat : U → Byte → U) (K : U → Prop) (held : U → List Bool)
    (bits : Byte → List Bool) (cap : Nat) : Prop where
  idle : ∀ x, K x → u.idle x = true
  room : ∀ x v, K x → (held x ++ bits v).length < cap → K (eat x v) ∧ held (eat x v) = held x ++ bits v

/-- Input that has room is eaten without an offer. -/
theorem PutUnit.Eats.loop_of_room (he : u.Eats loop eat) (hh : u.Holds eat K held bits cap) (count : Nat) (hK : K r.unit)
    (hroom : (held r.unit ++ (j.mem.readN (j.base + r.pos) count).flatMap bits).length < cap) :
    ∃ y, K y ∧ held y = held r.unit ++ (j.mem.readN (j.base + r.pos) count).flatMap bits ∧
      ∀ left, loop j (count + left) r = loop j left ⟨y, r.port, r.pos + count⟩ := by
  induction count generalizing r with
  | zero => exact ⟨r.unit, hK, by simp [Memory.readN], fun left => by rw [Nat.zero_add]; rfl⟩
  | succ count ih =>
    have hread : j.mem.readN (j.base + r.pos) (count + 1) =
        j.byteAt r.pos :: j.mem.readN (j.base + (r.pos + 1)) count := by
      rw [Nat.add_comm count, Memory.readN_add]
      rfl
    rw [hread, List.flatMap_cons, ← List.append_assoc] at hroom
    have hone : (held r.unit ++ bits (j.byteAt r.pos)).length < cap := by
      rw [List.length_append] at hroom
      omega
    obtain ⟨hK', hheld⟩ := hh.room r.unit (j.byteAt r.pos) hK hone
    obtain ⟨y, hy, hheldy, hloop⟩ := ih (r := eatNext eat j r) hK' (by rwa [eatNext_unit, eatNext_pos, hheld])
    refine ⟨y, hy, ?_, fun left => ?_⟩
    · rw [hheldy, hread, List.flatMap_cons, ← List.append_assoc, eatNext_unit, hheld, eatNext_pos]
    · rw [show count + 1 + left = count + left + 1 by omega, he.room j _ r (hh.idle _ hK) (hh.idle _ hK'), hloop,
        eatNext_port, eatNext_pos, Nat.add_assoc, Nat.add_comm 1]

/-- Input that has room, and a byte after it that leaves an emission pending of which the sink takes `a` bytes next, fewer
than all. -/
theorem PutUnit.Eats.loop_stall (he : u.Eats loop eat) (hj : j.blocking = false) {a : Nat}
    (ha : r.port.answers.headD (j.sink r.port.drawn) = a) {count : Nat} {y z : U}
    (hloop : ∀ left, loop j (count + left) r = loop j left ⟨y, r.port, r.pos + count⟩) (hidle : u.idle y = true)
    (hz : eat y (j.byteAt (r.pos + count)) = z) (hbusy : u.idle z = false) (hoff : u.pendOff z = 0) {x : List Byte}
    (hx : u.pending z = x) (hlt : a < x.length) (left : Nat) :
    ∃ p, loop j (count + (left + 1)) r = (.stall, ⟨u.setPendOff z a, p, r.pos + count + 1⟩) ∧
      p.history = r.port.history ++ [.offer x (u.pendMel z) false a] := by
  have hnext : eatNext eat j ⟨y, r.port, r.pos + count⟩ = ⟨z, r.port, r.pos + count + 1⟩ := by rw [← hz]; rfl
  obtain ⟨p, hflush, hp⟩ := u.flush_stall_whole (j := j) (r := ⟨z, r.port, r.pos + count + 1⟩) hj ha hoff hx hlt
  refine ⟨p, ?_, hp⟩
  rw [hloop]
  exact he.unflushed j left _ _ _ hidle (by rw [hnext]; exact hbusy) (by rw [hnext]; exact hflush) nofun

end

/-- An idle legal encoder that is `e` but for what it holds. -/
def Encoder.Packs (e e' : Encoder) : Prop := e.Packed e' ∧ e'.Legal ∧ e'.fsm = .idle

theorem Encoder.Packs.refl {e : Encoder} (h : e.Legal) (hi : e.fsm = .idle) : e.Packs e := ⟨⟨_, _, _, rfl⟩, h, hi⟩

theorem encoder_holds (e : Encoder) : encoderUnit.Holds Encoder.eat e.Packs heldBits bitsOfByte (e.obs * e.b) where
  idle x h := (encoderUnit_idle_iff x).mpr h.2.2
  room x v h hlt := by
    obtain ⟨hpacked, hlegal, hi⟩ := h
    have hcap : x.obs * x.b = e.obs * e.b := by obtain ⟨_, _, _, rfl⟩ := hpacked; rfl
    rw [List.length_append, bitsOfByte_length, ← hcap] at hlt
    obtain ⟨hlegal', hi', hpacked', hheld⟩ := Encoder.eat_of_room hlegal hi v hlt
    exact ⟨⟨hpacked.trans hpacked', hlegal', hi'⟩, hheld⟩

/-- A `BENC_PUT` that stalls, by how it runs. -/
theorem exec_bencPut_stall {s : State} {n : BitVec 4} {m : Byte} {e : Encoder} {p : Port} {pos : Nat}
    (hn : n.toNat < Config.params.nBenc) (hs : Started s) (hv : (s.encoder n).valid = true) (hfits : Fits s.addr0 s.len3)
    (h : s.encoderRun n false m = (.stall, ⟨e, p, pos⟩)) :
    ∃ t, exec (.bencPut n false m) s = .next t ∧ t.status = endedStalled s ∧ t.result.toNat = s.len3 - pos ∧
      t.encoder n = e ∧ (t.portE n).history = p.history := by
  obtain ⟨t, hexec, hframe, hresult, hunit, hport⟩ := exec_bencPut (k := false) (m := m) hn hs hv hfits (by rw [h]; nofun)
  rw [h] at hframe hresult hunit hport
  exact ⟨t, hexec, congrArg State.status hframe, hresult, hunit, congrArg Port.history hport⟩

theorem bitsOf_length (l : List Byte) : (bitsOf l).length = 8 * l.length := by
  simp [bitsOf, List.length_flatMap, Nat.mul_comm]

theorem flatMap_readN_succ (f : Byte → List Bool) (j : PutJob) (k : Nat) :
    (j.mem.readN j.base (k + 1)).flatMap f = (j.mem.readN (j.base + 0) k).flatMap f ++ f (j.byteAt (0 + k)) := by
  rw [Memory.readN_add, List.flatMap_append, Nat.zero_add]
  simp [Memory.readN, PutJob.byteAt]

section
variable {j : PutJob} {e : Encoder} {port : Port} {a : Nat}

/-- Input of an idle encoder with room in the block is packed without an offer. -/
theorem encoderLoop_of_packs (h : e.Legal) (hi : e.fsm = .idle) {c : Nat} (hroom : (heldBits e).length + 8 * c < e.obs * e.b) :
    ∃ y, e.Packs y ∧ heldBits y = heldBits e ++ bitsOf (j.mem.readN (j.base + 0) c) ∧
      ∀ left, encoderLoop j (c + left) ⟨e, port, 0⟩ = encoderLoop j left ⟨y, port, 0 + c⟩ := by
  refine encoderUnit_eats.loop_of_room (encoder_holds e) c (r := ⟨e, port, 0⟩) (.refl h hi) ?_
  show (heldBits e ++ bitsOf (j.mem.readN (j.base + 0) c)).length < _
  rwa [List.length_append, bitsOf_length, Memory.readN_length]

/-- Input that fills no block leaves nothing but the end of the message. -/
theorem encoderBody_of_room (h : e.Legal) (hi : e.fsm = .idle) (hroom : (heldBits e).length + 8 * j.n < e.obs * e.b) :
    ∃ y, e.Packs y ∧ heldBits y = heldBits e ++ bitsOf (j.mem.readN j.base j.n) ∧
      encoderBody j ⟨e, port, 0⟩ = (.go, ⟨y, port, j.n⟩) := by
  obtain ⟨y, hy, hheld, hloop⟩ := encoderLoop_of_packs (j := j) (port := port) h hi hroom
  refine ⟨y, hy, hheld, (hloop 0).trans ?_⟩
  rw [Nat.zero_add]
  rfl

/-- The first block that the input of an idle encoder fills, with its byte `c`, stalls the put when the sink takes fewer
than all of its symbols. -/
theorem encoderBody_stall (h : e.Legal) (hi : e.fsm = .idle) (hj : j.blocking = false)
    (ha : port.answers.headD (j.sink port.drawn) = a) {c : Nat} (hc : c ≤ j.n)
    (hfull : (heldBits e).length + 8 * c = e.obs * e.b) (hlt : a < e.obs) :
    ∃ buf p q port', encoderBody j ⟨e, port, 0⟩ = (.stall, ⟨{ e with
        outBuf := buf, bytePos := p, bitPos := q, fsm := .pendBlock, pendLen := e.obs, pendOff := a, pendMel := 0 }, port', c⟩) ∧
      buf.toList.take e.obs = symbolsOfBits e.b e.alphabet.toList (heldBits e ++ bitsOf (j.mem.readN j.base c)) ∧
      port'.history = port.history ++
        [.offer (symbolsOfBits e.b e.alphabet.toList (heldBits e ++ bitsOf (j.mem.readN j.base c))) 0 false a] := by
  have hroom := h.room hi
  rw [← heldBits_length] at hroom
  obtain ⟨c, rfl⟩ : ∃ k, c = k + 1 := ⟨c - 1, by omega⟩
  obtain ⟨y, ⟨⟨buf₀, p₀, q₀, rfl⟩, hlegal, hidle⟩, hheld, hloop⟩ :=
    encoderLoop_of_packs (j := j) (port := port) h hi (c := c) (by omega)
  obtain ⟨buf, p, q, heat, hbuf⟩ := Encoder.eat_of_full hlegal hidle (j.byteAt (0 + c)) (by
    rw [hheld, List.length_append, bitsOf_length, Memory.readN_length]
    simp only
    omega)
  rw [hheld, List.append_assoc, bitsOf, ← flatMap_readN_succ, ← bitsOf] at hbuf
  obtain ⟨port', hstall, hport⟩ := encoderUnit_eats.loop_stall hj (r := ⟨e, port, 0⟩) ha hloop
    ((encoderUnit_idle_iff _).mpr hidle) heat rfl rfl
    (x := buf.toList.take e.obs) rfl (by have := h.obsLe; simp; omega) (j.n - (c + 1))
  refine ⟨buf, p, q, port', ?_, hbuf, by rw [← hbuf]; exact hport⟩
  rw [encoderBody, show j.n - 0 = c + (j.n - (c + 1) + 1) by omega, hstall, Nat.zero_add]
  rfl

/-- The end of a message whose input fills no block of an idle encoder stalls the put when the sink takes fewer than all of
the last symbols. -/
theorem encoderRun_stall_of_end (h : e.Legal) (hi : e.fsm = .idle) (hj : j.blocking = false)
    (ha : port.answers.headD (j.sink port.drawn) = a) (hmel : 1 ≤ j.mel) (hbyte : j.mel ≤ 255)
    (hroom : (heldBits e).length + 8 * j.n < e.obs * e.b) {d : List Byte}
    (hd : d = padded e.padEn e.padByte e.obs
      (symbolsOfBits e.b e.alphabet.toList (heldBits e ++ bitsOf (j.mem.readN j.base j.n)))) (hlt : a < d.length) :
    ∃ buf p port', encoderUnit.run encoderBody j ⟨e, port, 0⟩ = (.stall, ⟨{ e with
        outBuf := buf, bytePos := p, bitPos := 0, fsm := .pendEom, pendLen := d.length, pendOff := a, pendMel := j.mel - 1 },
        port', j.n⟩) ∧
      buf.toList.take d.length = d ∧ port'.history = port.history ++ [.offer d (j.mel - 1) false a] := by
  obtain ⟨y, ⟨hpacked, hlegal, hidle⟩, hheld, hbody⟩ := encoderBody_of_room (j := j) (port := port) h hi hroom
  obtain ⟨buf, p, hopen⟩ := hpacked.openEnd j.mel
  have hlen := (hlegal.openEnd hidle hbyte).pending_length
  have hx : encoderUnit.pending (y.openEnd j.mel) = d := by
    rw [Encoder.pending_openEnd hlegal hidle, hheld, hd]
    obtain ⟨_, _, _, rfl⟩ := hpacked
    rfl
  rw [hx] at hlen
  rw [← hlen] at hopen
  obtain ⟨port', hflush, hport⟩ :=
    encoderUnit.flush_stall_whole (j := j) (r := ⟨y.openEnd j.mel, port, j.n⟩) hj ha rfl hx hlt
  rw [hopen] at hx hflush
  refine ⟨buf, p, port', ?_, hx, hport⟩
  rw [PutUnit.run_of_body_go ((encoderUnit_idle_iff e).mpr hi) hbody, PutUnit.messageEnd_eq_flush hmel]
  show encoderUnit.flush j ⟨y.openEnd j.mel, port, j.n⟩ = _
  rw [hopen, hflush]
  rfl

end

end Sys2Proof.Machine
end

section
/-! PROOF. Stalls of the encoder (spec/44_filter_interface.md R194, spec/45_basen_encoder.md R212 to R215). -/

namespace Sys2Proof.Proofs

open Sys2Proof.Machine Sys2Proof.Statements

/-- Settles O33: in each case the put comes to that offer first, and stops on it. -/
theorem encoderPutStalls : Obligations.EncoderPutStalls := by
  intro n m s hn hs hpos hfits hv e a input symbols
  have hrun : s.encoderRun n false m =
      encoderUnit.run encoderBody (s.putJob .encoder n false m) ⟨e, s.portE n, 0⟩ := by rw [State.encoderRun, hpos]
  refine ⟨?pending, ?block, ?messageEnd⟩
  case pending =>
    intro hf d hlt
    obtain ⟨p, hflush, hp⟩ :=
      encoderUnit.flush_stall (j := s.putJob .encoder n false m) (r := ⟨e, s.portE n, 0⟩) rfl (a := a) rfl (x := d) rfl hlt
    obtain ⟨t, hexec, hstatus, hresult, hunit, hport⟩ := exec_bencPut_stall hn hs hv hfits
      (hrun.trans (PutUnit.run_of_flush_stopped ((encoderUnit_idle_eq_false_iff e).mpr hf) hflush nofun))
    exact ⟨t, hexec, hstatus, hresult, hunit, hport.trans hp⟩
  case block =>
    intro hinv hf c hc hfull hlt
    obtain ⟨buf, p, q, port', hbody, hbuf, hp⟩ := encoderBody_stall
      (j := s.putJob .encoder n false m) (port := s.portE n) (a := a) ⟨hinv, hv⟩ hf rfl rfl hc hfull hlt
    have hsymbols : symbols c = symbolsOfBits e.b e.alphabet.toList (heldBits e ++ bitsOf (s.mem.readN s.addr0 c)) := by
      rw [← Memory.readN_take s.mem s.addr0 hc]
    obtain ⟨t, hexec, hstatus, hresult, hunit, hport⟩ := exec_bencPut_stall hn hs hv hfits
      (hrun.trans (PutUnit.run_of_body_stopped ((encoderUnit_idle_iff e).mpr hf) hbody nofun))
    refine ⟨t, hexec, hstatus, hresult, ?_, ?_, ?_⟩
    · rw [hunit]
    · rw [hunit, hsymbols]
      exact hbuf
    · rw [hport, hp, hsymbols]
      rfl
  case messageEnd =>
    intro hinv hf hmel hroom d hlt
    have hd : d = padded e.padEn e.padByte e.obs
        (symbolsOfBits e.b e.alphabet.toList (heldBits e ++ bitsOf (s.mem.readN s.addr0 s.len3))) := by
      rw [← Memory.readN_take s.mem s.addr0 (Nat.le_refl s.len3)]
    obtain ⟨buf, p, port', hstall, hbuf, hp⟩ := encoderRun_stall_of_end
      (j := s.putJob .encoder n false m) (port := s.portE n) (a := a) ⟨hinv, hv⟩ hf rfl rfl hmel (Nat.le_of_lt_succ m.isLt)
      hroom hd hlt
    obtain ⟨t, hexec, hstatus, hresult, hunit, hport⟩ := exec_bencPut_stall hn hs hv hfits (hrun.trans hstall)
    refine ⟨t, hexec, hstatus, BitVec.eq_of_toNat_eq (hresult.trans (Nat.sub_self s.len3)), ?_, ?_, hport.trans hp⟩
    · rw [hunit]
      rfl
    · rw [hunit]
      exact hbuf

end Sys2Proof.Proofs
end

section
/-! SUPPORT. What a decoder holds while it eats its input (spec/46_basen_decoder.md R232 to R234): each symbol's bits are
appended, and the whole bytes of those bits come out. -/

namespace Sys2Proof.Machine

open Sys2Proof.Statements

/-! ### Accumulating (R233) -/

theorem heldByteBits_length (d : Decoder) : (heldByteBits d).length = d.cursor := by
  rw [heldByteBits_eq_bufferBits, bufferBits_length, Decoder.cursor, Nat.mul_comm]

theorem heldByteBits_accumulateBit {d : Decoder} (h : d.Accumulating) (hp : d.bytePos < d.obs) (bit : Bool) :
    heldByteBits (accumulateBit d bit) = heldByteBits d ++ [bit] := by
  have hset := bufferBits_setBit (Nat.le_refl 8) (Nat.lt_succ_of_le h.bitLe) (hp.trans_le h.obsLe) h.partialMod bit
  rw [heldByteBits_eq_bufferBits d, ← hset]
  rcases accumulateBit_cases d bit with ⟨hlast, heq⟩ | ⟨-, heq⟩ <;> rw [heldByteBits_eq_bufferBits, heq]
  · rw [hlast]
    exact (bufferBits_whole _ _ _).symm
  · rfl

/-- Bits that fit in the group are appended to those held. -/
theorem heldByteBits_accumulateBits (bits : List Bool) {d : Decoder} (h : d.Accumulating)
    (hfit : d.cursor + bits.length ≤ 8 * d.obs) : heldByteBits (bits.foldl accumulateBit d) = heldByteBits d ++ bits := by
  induction bits generalizing d with
  | nil => simp
  | cons x xs ih =>
    rw [List.length_cons] at hfit
    have hp : d.bytePos < d.obs := by
      rw [Decoder.cursor] at hfit
      omega
    have hcur := accumulateBit_cursor d x
    have hobs : (accumulateBit d x).obs = d.obs := by
      obtain ⟨_, _, _, heq⟩ := accumulateBit_frame d x
      rw [heq]
    rw [List.foldl_cons, ih (accumulateBit_accumulating h x hp) (by rw [hobs]; omega), heldByteBits_accumulateBit h hp,
      List.append_assoc, List.singleton_append]

/-- The bits of a symbol in the order in which a decoder takes them. -/
theorem reverse_range_map_getLsbD (b : Nat) (v : Byte) : (List.range b).reverse.map v.getLsbD = topBits b b v :=
  List.ext_getElem (by simp) fun i _ _ => by simp [topBits]

/-- The bits that a decoder takes from one input byte. -/
def decodedByte (b : Nat) (lookup : Vector Byte 256) (c : Byte) : List Bool :=
  if 2 ^ b ≤ (entry lookup c.toNat 0xFF#8).toNat then [] else topBits b b (entry lookup c.toNat 0xFF#8)

theorem decodedBits_eq_flatMap (b : Nat) (lookup : Vector Byte 256) (l : List Byte) :
    decodedBits b lookup.toList l = l.flatMap (decodedByte b lookup) := rfl

section
variable {d : Decoder}

theorem heldByteBits_accumulate (h : d.Legal) (hi : d.fsm = .idle) (v : Byte) :
    heldByteBits (accumulate d v) = heldByteBits d ++ topBits d.b d.b v := by
  rw [accumulate_eq_accumulateBits, reverse_range_map_getLsbD]
  exact heldByteBits_accumulateBits (topBits d.b d.b v) (h.accumulating hi) (by rw [topBits_length]; exact h.room hi)

/-- The decoder `d'` is `d` but for the buffer and the cursor. -/
def Decoder.Packed (d d' : Decoder) : Prop := ∃ buf p q, d' = { d with outBuf := buf, bytePos := p, bitPos := q }

theorem Decoder.Packed.trans {d d' d'' : Decoder} (h : d.Packed d') (h' : d'.Packed d'') : d.Packed d'' := by
  obtain ⟨_, _, _, rfl⟩ := h
  obtain ⟨buf, p, q, rfl⟩ := h'
  exact ⟨buf, p, q, rfl⟩

/-- The end of a message opened, on a decoder that is `d` but for the buffer and the cursor. -/
theorem Decoder.Packed.openEnd {d' : Decoder} (h : d.Packed d') (mel : Nat) : ∃ buf p q, d'.openEnd mel =
    { d with outBuf := buf, bytePos := p, bitPos := q, fsm := .pendEom, pendLen := (d'.openEnd mel).pendLen, pendOff := 0,
             pendMel := mel - 1 } := by
  obtain ⟨_, _, _, rfl⟩ := h
  exact ⟨_, _, _, rfl⟩

/-- The cursor of a decoder with a symbol accumulated, from the bits it holds. -/
theorem accumulate_cursor (h : d.Legal) (hi : d.fsm = .idle) (v : Byte) :
    (accumulate d v).cursor = (heldByteBits d).length + d.b := by
  rw [← heldByteBits_length, heldByteBits_accumulate h hi, List.length_append, topBits_length]

/-- A byte that does not fill the group leaves the decoder idle, with the bits of its symbol if it has one. -/
theorem Decoder.eat_of_room (h : d.Legal) (hi : d.fsm = .idle) (c : Byte)
    (hlt : (heldByteBits d ++ decodedByte d.b d.lookup c).length < 8 * d.obs) :
    (d.eat c).Legal ∧ (d.eat c).fsm = .idle ∧ d.Packed (d.eat c) ∧
      heldByteBits (d.eat c) = heldByteBits d ++ decodedByte d.b d.lookup c := by
  by_cases hs : 2 ^ d.b ≤ (entry d.lookup c.toNat 0xFF#8).toNat
  · have heat : d.eat c = d := if_pos (decide_eq_true hs)
    rw [heat, decodedByte, if_pos hs, List.append_nil]
    exact ⟨h, hi, ⟨_, _, _, rfl⟩, rfl⟩
  · rw [decodedByte, if_neg hs] at hlt ⊢
    have hcur := accumulate_cursor h hi (entry d.lookup c.toNat 0xFF#8)
    obtain ⟨buf, p, q, heq, -⟩ := accumulate_spec h hi (entry d.lookup c.toNat 0xFF#8)
    rw [List.length_append, topBits_length] at hlt
    have hne : (accumulate d (entry d.lookup c.toNat 0xFF#8)).bytePos ≠ (accumulate d (entry d.lookup c.toNat 0xFF#8)).obs :=
      fun hfull => by
        rw [Decoder.cursor, hfull, heq] at hcur
        simp only at hcur
        omega
    have heat : d.eat c = accumulate d (entry d.lookup c.toNat 0xFF#8) := by
      rw [Decoder.eat, if_neg (by simpa [Decoder.skips] using hs), if_neg hne]
    obtain ⟨hlegal, hidle⟩ := accumulate_legal h hi _ hne
    rw [heat]
    exact ⟨hlegal, hidle, ⟨buf, p, q, heq⟩, heldByteBits_accumulate h hi _⟩

/-- A byte that fills the group leaves its bytes pending. -/
theorem Decoder.eat_of_full (h : d.Legal) (hi : d.fsm = .idle) (c : Byte) (hroom : (heldByteBits d).length < 8 * d.obs)
    (hfull : (heldByteBits d ++ decodedByte d.b d.lookup c).length = 8 * d.obs) :
    ∃ buf p q, d.eat c = { d with outBuf := buf, bytePos := p, bitPos := q, fsm := .pendBlock, pendLen := d.obs, pendOff := 0,
                                  pendMel := 0 } ∧
      buf.toList.take d.obs = wholeBytes (heldByteBits d ++ decodedByte d.b d.lookup c) := by
  have hs : ¬2 ^ d.b ≤ (entry d.lookup c.toNat 0xFF#8).toNat := fun hs => by
    rw [decodedByte, if_pos hs, List.append_nil] at hfull
    omega
  rw [decodedByte, if_neg hs] at hfull ⊢
  rw [List.length_append, topBits_length] at hfull
  have hcur := accumulate_cursor h hi (entry d.lookup c.toNat 0xFF#8)
  have hheld := heldByteBits_accumulate h hi (entry d.lookup c.toNat 0xFF#8)
  obtain ⟨buf, p, q, heq, hacc, hp, -⟩ := accumulate_spec h hi (entry d.lookup c.toNat 0xFF#8)
  have hbit := hacc.bitLe
  rw [Decoder.eat, if_neg (by simpa [Decoder.skips] using hs)]
  rw [heq] at hcur hheld hbit ⊢
  simp only [Decoder.cursor] at hcur hbit
  obtain ⟨rfl, rfl⟩ : p = d.obs ∧ q = 0 := by omega
  refine ⟨_, _, _, if_pos rfl, ?_⟩
  rw [← hheld, heldByteBits_eq_bufferBits, wholeBytes_bufferBits (Nat.zero_lt_succ 7) h.obsLe]

/-- The end of a message leaves the whole bytes of the bits held pending. -/
theorem Decoder.pending_openEnd (h : d.Legal) (mel : Nat) :
    decoderUnit.pending (d.openEnd mel) = wholeBytes (heldByteBits d) := by
  rw [heldByteBits_eq_bufferBits, wholeBytes_bufferBits (Nat.lt_succ_of_le h.1.posLe.2) (h.1.posLe.1.trans h.obsLe)]
  rfl

end

/-! ### The input (R232) -/

/-- An idle legal decoder that is `d` but for what it holds. -/
def Decoder.Packs (d d' : Decoder) : Prop := d.Packed d' ∧ d'.Legal ∧ d'.fsm = .idle

theorem Decoder.Packs.refl {d : Decoder} (h : d.Legal) (hi : d.fsm = .idle) : d.Packs d := ⟨⟨_, _, _, rfl⟩, h, hi⟩

theorem decoder_holds (d : Decoder) :
    decoderUnit.Holds Decoder.eat d.Packs heldByteBits (decodedByte d.b d.lookup) (8 * d.obs) where
  idle x h := (decoderUnit_idle_iff x).mpr h.2.2
  room x c h hlt := by
    obtain ⟨hpacked, hlegal, hi⟩ := h
    obtain ⟨hb, hlookup, hobs⟩ : x.b = d.b ∧ x.lookup = d.lookup ∧ x.obs = d.obs := by
      obtain ⟨_, _, _, rfl⟩ := hpacked
      exact ⟨rfl, rfl, rfl⟩
    rw [← hb, ← hlookup, ← hobs] at hlt
    obtain ⟨hlegal', hi', hpacked', hheld⟩ := Decoder.eat_of_room hlegal hi c hlt
    exact ⟨⟨hpacked.trans hpacked', hlegal', hi'⟩, by rw [hheld, hb, hlookup]⟩

/-- A `BDEC_PUT` that stalls, by how it runs. -/
theorem exec_bdecPut_stall {s : State} {n : BitVec 4} {m : Byte} {d : Decoder} {p : Port} {pos : Nat}
    (hn : n.toNat < Config.params.nBdec) (hs : Started s) (hv : (s.decoder n).valid = true) (hfits : Fits s.addr0 s.len3)
    (h : s.decoderRun n false m = (.stall, ⟨d, p, pos⟩)) :
    ∃ t, exec (.bdecPut n false m) s = .next t ∧ t.status = endedStalled s ∧ t.result.toNat = s.len3 - pos ∧
      t.decoder n = d ∧ (t.portD n).history = p.history := by
  obtain ⟨t, hexec, hframe, hresult, hunit, hport⟩ := exec_bdecPut (k := false) (m := m) hn hs hv hfits (by rw [h]; nofun)
  rw [h] at hframe hresult hunit hport
  exact ⟨t, hexec, congrArg State.status hframe, hresult, hunit, congrArg Port.history hport⟩

section
variable {j : PutJob} {d : Decoder} {port : Port} {a : Nat}

/-- Input of an idle decoder with room in the group is accumulated without an offer. -/
theorem decoderLoop_of_packs (h : d.Legal) (hi : d.fsm = .idle) {c : Nat}
    (hroom : (heldByteBits d ++ decodedBits d.b d.lookup.toList (j.mem.readN j.base c)).length < 8 * d.obs) :
    ∃ y, d.Packs y ∧ heldByteBits y = heldByteBits d ++ decodedBits d.b d.lookup.toList (j.mem.readN j.base c) ∧
      ∀ left, decoderLoop j (c + left) ⟨d, port, 0⟩ = decoderLoop j left ⟨y, port, 0 + c⟩ := by
  rw [decodedBits_eq_flatMap] at hroom ⊢
  exact decoderUnit_eats.loop_of_room (decoder_holds d) c (r := ⟨d, port, 0⟩) (.refl h hi) hroom

/-- Input that fills no group leaves nothing but the end of the message. -/
theorem decoderBody_of_room (h : d.Legal) (hi : d.fsm = .idle)
    (hroom : (heldByteBits d ++ decodedBits d.b d.lookup.toList (j.mem.readN j.base j.n)).length < 8 * d.obs) :
    ∃ y, d.Packs y ∧ heldByteBits y = heldByteBits d ++ decodedBits d.b d.lookup.toList (j.mem.readN j.base j.n) ∧
      decoderBody j ⟨d, port, 0⟩ = (.go, ⟨y, port, j.n⟩) := by
  obtain ⟨y, hy, hheld, hloop⟩ := decoderLoop_of_packs (port := port) h hi hroom
  refine ⟨y, hy, hheld, (hloop 0).trans ?_⟩
  rw [Nat.zero_add]
  rfl

/-- The first group that the symbols of an idle decoder's input fill, with its byte `c`, stalls the put when the sink takes
fewer than all of its bytes. -/
theorem decoderBody_stall (h : d.Legal) (hi : d.fsm = .idle) (hj : j.blocking = false)
    (ha : port.answers.headD (j.sink port.drawn) = a) {c : Nat} (hc : c ≤ j.n)
    (hroom : (heldByteBits d ++ decodedBits d.b d.lookup.toList (j.mem.readN j.base (c - 1))).length < 8 * d.obs)
    {bits : List Bool} (hbits : bits = heldByteBits d ++ decodedBits d.b d.lookup.toList (j.mem.readN j.base c))
    (hfull : bits.length = 8 * d.obs) (hlt : a < d.obs) :
    ∃ buf p q port', decoderBody j ⟨d, port, 0⟩ = (.stall, ⟨{ d with
        outBuf := buf, bytePos := p, bitPos := q, fsm := .pendBlock, pendLen := d.obs, pendOff := a, pendMel := 0 }, port', c⟩) ∧
      buf.toList.take d.obs = wholeBytes bits ∧
      port'.history = port.history ++ [.offer (wholeBytes bits) 0 false a] := by
  subst hbits
  obtain ⟨c, rfl⟩ : ∃ k, c = k + 1 := Nat.exists_eq_succ_of_ne_zero fun hzero => by
    subst hzero
    exact absurd hfull hroom.ne
  rw [Nat.add_sub_cancel] at hroom
  obtain ⟨y, ⟨⟨buf₀, p₀, q₀, rfl⟩, hlegal, hidle⟩, hheld, hloop⟩ := decoderLoop_of_packs (port := port) h hi hroom
  have hsplit : decodedBits d.b d.lookup.toList (j.mem.readN j.base (c + 1)) =
      decodedBits d.b d.lookup.toList (j.mem.readN j.base c) ++ decodedByte d.b d.lookup (j.byteAt (0 + c)) := by
    rw [decodedBits_eq_flatMap, decodedBits_eq_flatMap]
    exact flatMap_readN_succ (decodedByte d.b d.lookup) j c
  rw [hsplit, ← List.append_assoc, ← hheld] at hfull ⊢
  obtain ⟨buf, p, q, heat, hbuf⟩ := Decoder.eat_of_full hlegal hidle (j.byteAt (0 + c)) (by rwa [hheld]) hfull
  obtain ⟨port', hstall, hport⟩ := decoderUnit_eats.loop_stall hj (r := ⟨d, port, 0⟩) ha hloop
    ((decoderUnit_idle_iff _).mpr hidle) heat rfl rfl
    (x := buf.toList.take d.obs) rfl (by have := h.obsLe; simp; omega) (j.n - (c + 1))
  refine ⟨buf, p, q, port', ?_, hbuf, by rw [← hbuf]; exact hport⟩
  rw [decoderBody, show j.n - 0 = c + (j.n - (c + 1) + 1) by omega, hstall, Nat.zero_add]
  rfl

/-- The end of a message whose input fills no group of an idle decoder stalls the put when the sink takes fewer than all of
the last bytes. -/
theorem decoderRun_stall_of_end (h : d.Legal) (hi : d.fsm = .idle) (hj : j.blocking = false)
    (ha : port.answers.headD (j.sink port.drawn) = a) (hmel : 1 ≤ j.mel) (hbyte : j.mel ≤ 255)
    {bits : List Bool} (hbits : bits = heldByteBits d ++ decodedBits d.b d.lookup.toList (j.mem.readN j.base j.n))
    (hroom : bits.length < 8 * d.obs) {x : List Byte} (hx : wholeBytes bits = x) (hlt : a < x.length) :
    ∃ buf p q port', decoderUnit.run decoderBody j ⟨d, port, 0⟩ = (.stall, ⟨{ d with
        outBuf := buf, bytePos := p, bitPos := q, fsm := .pendEom, pendLen := x.length, pendOff := a, pendMel := j.mel - 1 },
        port', j.n⟩) ∧
      buf.toList.take x.length = x ∧ port'.history = port.history ++ [.offer x (j.mel - 1) false a] := by
  subst hbits
  obtain ⟨y, ⟨hpacked, hlegal, hidle⟩, hheld, hbody⟩ := decoderBody_of_room (j := j) (port := port) h hi hroom
  obtain ⟨buf, p, q, hopen⟩ := hpacked.openEnd j.mel
  have hlen := (hlegal.openEnd hbyte).pending_length
  have hpending : decoderUnit.pending (y.openEnd j.mel) = x := by rw [Decoder.pending_openEnd hlegal, hheld, hx]
  rw [hpending] at hlen
  rw [← hlen] at hopen
  obtain ⟨port', hflush, hport⟩ :=
    decoderUnit.flush_stall_whole (j := j) (r := ⟨y.openEnd j.mel, port, j.n⟩) hj ha rfl hpending hlt
  rw [hopen] at hpending hflush
  refine ⟨buf, p, q, port', ?_, hpending, hport⟩
  rw [PutUnit.run_of_body_go ((decoderUnit_idle_iff d).mpr hi) hbody, PutUnit.messageEnd_eq_flush hmel]
  show decoderUnit.flush j ⟨y.openEnd j.mel, port, j.n⟩ = _
  rw [hopen, hflush]
  rfl

end

end Sys2Proof.Machine
end

section
/-! PROOF. Stalls of the decoder (spec/44_filter_interface.md R194, spec/46_basen_decoder.md R232 to R234). -/

namespace Sys2Proof.Proofs

open Sys2Proof.Machine Sys2Proof.Statements

/-- Settles O34: in each case the put comes to that offer first, and stops on it. -/
theorem decoderPutStalls : Obligations.DecoderPutStalls := by
  intro n m s hn hs hpos hfits hv d a bits
  have hrun : s.decoderRun n false m =
      decoderUnit.run decoderBody (s.putJob .decoder n false m) ⟨d, s.portD n, 0⟩ := by rw [State.decoderRun, hpos]
  have hbits (c : Nat) (hc : c ≤ s.len3) :
      bits c = heldByteBits d ++ decodedBits d.b d.lookup.toList (s.mem.readN s.addr0 c) := by
    rw [← Memory.readN_take s.mem s.addr0 hc]
  refine ⟨?pending, ?block, ?messageEnd⟩
  case pending =>
    intro hf x hlt
    obtain ⟨p, hflush, hp⟩ :=
      decoderUnit.flush_stall (j := s.putJob .decoder n false m) (r := ⟨d, s.portD n, 0⟩) rfl (a := a) rfl (x := x) rfl hlt
    obtain ⟨t, hexec, hstatus, hresult, hunit, hport⟩ := exec_bdecPut_stall hn hs hv hfits
      (hrun.trans (PutUnit.run_of_flush_stopped ((decoderUnit_idle_eq_false_iff d).mpr hf) hflush nofun))
    exact ⟨t, hexec, hstatus, hresult, hunit, hport.trans hp⟩
  case block =>
    intro hinv hf c hc hroom hfull hlt
    rw [hbits (c - 1) (by omega)] at hroom
    obtain ⟨buf, p, q, port', hbody, hbuf, hp⟩ := decoderBody_stall
      (j := s.putJob .decoder n false m) (port := s.portD n) (a := a) ⟨hinv, hv⟩ hf rfl rfl hc hroom (hbits c hc) hfull hlt
    obtain ⟨t, hexec, hstatus, hresult, hunit, hport⟩ := exec_bdecPut_stall hn hs hv hfits
      (hrun.trans (PutUnit.run_of_body_stopped ((decoderUnit_idle_iff d).mpr hf) hbody nofun))
    refine ⟨t, hexec, hstatus, hresult, ?_, ?_, hport.trans hp⟩
    · rw [hunit]
    · rw [hunit]
      exact hbuf
  case messageEnd =>
    intro hinv hf hmel hroom x hlt
    obtain ⟨buf, p, q, port', hstall, hbuf, hp⟩ := decoderRun_stall_of_end
      (j := s.putJob .decoder n false m) (port := s.portD n) (a := a) ⟨hinv, hv⟩ hf rfl rfl hmel (Nat.le_of_lt_succ m.isLt)
      (hbits s.len3 (Nat.le_refl _)) hroom (x := x) rfl hlt
    obtain ⟨t, hexec, hstatus, hresult, hunit, hport⟩ := exec_bdecPut_stall hn hs hv hfits (hrun.trans hstall)
    refine ⟨t, hexec, hstatus, BitVec.eq_of_toNat_eq (hresult.trans (Nat.sub_self s.len3)), ?_, ?_, hport.trans hp⟩
    · rw [hunit]
      rfl
    · rw [hunit]
      exact hbuf

end Sys2Proof.Proofs
end

section
/-! SUPPORT. Messages put into a codec whole: the output is a function of the message's bits, whatever groups the unit makes of
them on the way (spec/45_basen_encoder.md R212, R214, R215). -/

namespace Sys2Proof.Machine

open Sys2Proof.Statements

section
variable {U : Type} {u : PutUnit U} {eat : U → Byte → U} {K : U → Prop} {held : U → List Bool} {bits : Byte → List Bool}
  {cap mel : Nat} {fresh : U} {out : List Bool → List Byte}

/-- A unit whose messages come out as `out` of their bits: a byte that fills the group brings out that group's part and
leaves the unit as the end of a message does, `fresh`; the end brings out what is left. -/
structure PutUnit.Outputs (u : PutUnit U) (eat : U → Byte → U) (K : U → Prop) (held : U → List Bool)
    (bits : Byte → List Bool) (cap : Nat) (fresh : U) (out : List Bool → List Byte) (mel : Nat) : Prop
    extends u.Holds eat K held bits cap where
  restart : K fresh ∧ held fresh = []
  full : ∀ x v, K x → cap ≤ (held x ++ bits v).length → ∃ d : List Byte, u.feedOf eat x v = (fresh, d.map .byte) ∧
    ∀ l, out (held x ++ bits v ++ l) = d ++ out l
  ending : ∀ x, K x → u.ending mel x = (fresh, (out (held x)).map .byte ++ endItem mel)

/-- The bits of the message follow those that the unit holds already. -/
theorem PutUnit.Outputs.ideal_eq (ho : u.Outputs eat K held bits cap fresh out mel) {x : U} (hK : K x) (l : List Byte) :
    u.ideal (u.feedOf eat) mel x l = (fresh, (out (held x ++ l.flatMap bits)).map .byte ++ endItem mel) := by
  have hidle := ho.idle x hK
  rw [u.ideal_of_not_endPending (u.not_endPending_of_idle hidle), u.resume_of_idle hidle]
  clear hidle
  induction l generalizing x with
  | nil => rw [List.flatMap_nil, List.append_nil]; exact ho.ending x hK
  | cons v l ih =>
    show prepend (_ ++ _) (u.ending mel (digest (u.feedOf eat) (u.feedOf eat x v).1 l).1) = _
    rw [← prepend_prepend, List.flatMap_cons, ← List.append_assoc]
    by_cases hroom : (held x ++ bits v).length < cap
    · obtain ⟨hK', hheld⟩ := ho.room x v hK hroom
      have hfeed : u.feedOf eat x v = (eat x v, []) :=
        Prod.ext (u.settled_of_idle (ho.idle _ hK')) (u.owes_of_idle (ho.idle _ hK'))
      rw [hfeed, ih hK', prepend_nil, hheld]
    · obtain ⟨d, hfeed, hout⟩ := ho.full x v hK (Nat.le_of_not_lt hroom)
      obtain ⟨hfresh, hempty⟩ := ho.restart
      rw [hfeed, ih hfresh, hempty, hout, List.nil_append, List.map_append, List.append_assoc, prepend]

end

/-! ### Groups of bits -/

section
variable {α : Type} {b : Nat}

/-- The bound on the number of pieces does not matter once it is the list's length. -/
theorem cut_of_length_le (hb : 0 < b) {k k' : Nat} {l : List α} (hk : l.length ≤ k) (hk' : l.length ≤ k') :
    cut b k l = cut b k' l := by
  induction k generalizing k' l with
  | zero => rw [List.eq_nil_of_length_eq_zero (Nat.le_zero.mp hk), cut_nil, cut_nil]
  | succ k ih =>
    cases l with
    | nil => rw [cut_nil, cut_nil]
    | cons a l =>
      obtain ⟨k', rfl⟩ : ∃ m, k' = m + 1 := ⟨k' - 1, by simp at hk'; omega⟩
      have hdrop : ((a :: l).drop b).length ≤ l.length := by simp; omega
      simp only [List.length_cons, Nat.add_le_add_iff_right] at hk hk'
      simp only [cut, List.isEmpty_cons, Bool.false_eq_true, if_false, ih (hdrop.trans hk) (hdrop.trans hk')]

/-- A first whole piece is cut off. -/
theorem cut_append_piece (hb : 0 < b) {g : List α} (hg : g.length = b) (l : List α) :
    cut b (g ++ l).length (g ++ l) = g :: cut b l.length l := by
  obtain ⟨k, hk⟩ : ∃ k, (g ++ l).length = k + 1 := ⟨(g ++ l).length - 1, by rw [List.length_append]; omega⟩
  have hne : g ++ l ≠ [] := fun h => by simp [h] at hk
  rw [List.length_append] at hk
  rw [List.length_append, hk]
  simp only [cut, List.isEmpty_iff, hne, if_false, List.take_left' hg, List.drop_left' hg]
  rw [cut_of_length_le hb (by omega) (Nat.le_refl l.length)]

/-- Whole pieces are cut off apart from what follows them. -/
theorem cut_append (hb : 0 < b) {m : Nat} {x : List α} (hx : x.length = m * b) (l : List α) :
    cut b (x ++ l).length (x ++ l) = cut b x.length x ++ cut b l.length l := by
  induction m generalizing x with
  | zero =>
    rw [Nat.zero_mul] at hx
    rw [List.eq_nil_of_length_eq_zero hx, List.nil_append, cut_nil, List.nil_append]
  | succ m ih =>
    rw [Nat.succ_mul] at hx
    have hg : (x.take b).length = b := by rw [List.length_take]; omega
    have hrest : (x.drop b).length = m * b := by rw [List.length_drop]; omega
    rw [← List.take_append_drop b x, List.append_assoc, cut_append_piece hb hg, ih hrest,
      cut_append_piece hb hg, List.cons_append]

end

/-- Whole symbols come out apart from those that follow them. -/
theorem symbolsOfBits_append {b m : Nat} (hb : 0 < b) (alphabet : List Byte) {x : List Bool} (hx : x.length = m * b)
    (l : List Bool) : symbolsOfBits b alphabet (x ++ l) = symbolsOfBits b alphabet x ++ symbolsOfBits b alphabet l := by
  rw [symbolsOfBits, cut_append hb hx, List.map_append, symbolsOfBits, symbolsOfBits]

/-- A whole block needs no padding. -/
theorem padded_append {obs : Nat} (padOn : Bool) (padByte : Byte) {x : List Byte} (hx : x.length = obs) (l : List Byte) :
    padded padOn padByte obs (x ++ l) = x ++ padded padOn padByte obs l := by
  cases padOn with
  | false => rfl
  | true => simp only [padded, if_true, List.length_append, hx, Nat.add_mod_left, List.append_assoc]

/-- The alphabet of a legal configuration fits its buffer (R34). -/
theorem alphabetSize_le {b : Nat} (h7 : b ≤ 7) : 2 ^ b ≤ 128 := Nat.pow_le_pow_right (n := 2) (by decide) h7

/-- Only the alphabet's entries matter, not how long its list is. -/
theorem symbolsOfBits_fillBuffer {n b : Nat} {alphabet : List Byte} (h : alphabet.length ≤ n) (l : List Bool) :
    symbolsOfBits b (fillBuffer n alphabet 0).toList l = symbolsOfBits b alphabet l :=
  List.map_congr_left fun _ _ => entry_fillBuffer alphabet 0 _ h

/-! ### The encoder -/

section
variable {e : Encoder}

/-- The symbols of a whole message's bits, padded up to a block if padding is on (R214, R215). -/
def Encoder.encoded (e : Encoder) (l : List Bool) : List Byte :=
  padded e.padEn e.padByte e.obs (symbolsOfBits e.b e.alphabet.toList l)

theorem Encoder.Packed.encoded {e' : Encoder} (h : e.Packed e') : e'.encoded = e.encoded := by
  obtain ⟨_, _, _, rfl⟩ := h
  rfl

theorem Encoder.Packed.resetCursors {e' : Encoder} (h : e.Packed e') : e'.resetCursors = e.resetCursors := by
  obtain ⟨_, _, _, rfl⟩ := h
  rfl

/-- An idle legal encoder is its reset one but for what it holds (R36). -/
theorem Encoder.Legal.packs_resetCursors (h : e.Legal) (hi : e.fsm = .idle) : e.Packs e.resetCursors := by
  obtain ⟨hlen, hoff, hmel⟩ := h.1.idlePending hi
  refine ⟨⟨Vector.replicate 8 0, 0, 0, ?_⟩, h.resetCursors, rfl⟩
  rw [Encoder.resetCursors, hlen, hoff, hmel, hi]

theorem heldBits_resetCursors (e : Encoder) : heldBits e.resetCursors = [] := rfl

/-- What a byte that fills the block of an idle encoder brings out, and what it leaves (R214). -/
theorem Encoder.feed_of_full (h : e.Legal) (hi : e.fsm = .idle) (v : Byte) (hfull : (heldBits e).length + 8 = e.obs * e.b) :
    encoderFeed e v = (e.resetCursors, (symbolsOfBits e.b e.alphabet.toList (heldBits e ++ bitsOfByte v)).map .byte) ∧
      (symbolsOfBits e.b e.alphabet.toList (heldBits e ++ bitsOfByte v)).length = e.obs := by
  obtain ⟨buf, p, q, heat, hbuf⟩ := Encoder.eat_of_full h hi v hfull
  rw [← hbuf]
  refine ⟨?_, by simpa using h.obsLe⟩
  have hpending : encoderUnit.idle (e.eat v) = false := by rw [heat]; rfl
  have hsettled : encoderUnit.settled (e.eat v) = e.resetCursors := by
    rw [PutUnit.settled_of_pending hpending, heat]
    rfl
  have howes : encoderUnit.owes (e.eat v) = owed (buf.toList.take e.obs) 0 0 := by
    rw [PutUnit.owes_of_pending hpending, heat]
    rfl
  rw [encoderFeed, PutUnit.feedOf, hsettled, howes, owed, List.drop_zero, endMark, if_neg (by decide), List.append_nil]

/-- What the end of a message brings out of an idle encoder, and what it leaves (R215). -/
theorem Encoder.ending_eq (h : e.Legal) (hi : e.fsm = .idle) {mel : Nat} (hmel : 1 ≤ mel) :
    encoderUnit.ending mel e = (e.resetCursors, (e.encoded (heldBits e)).map .byte ++ endItem mel) := by
  have hpending := encoderUnit_lawful.idle_beginEnd e mel
  have hmark : endMark (mel - 1) = endItem mel := by
    simp only [endMark, endItem, show 1 ≤ mel - 1 ↔ 2 ≤ mel by omega]
  have howes : encoderUnit.owes (encoderUnit.beginEnd e mel) = owed (e.encoded (heldBits e)) (mel - 1) 0 :=
    (PutUnit.owes_of_pending hpending).trans (congrArg (owed · (mel - 1) 0) (Encoder.pending_openEnd h hi mel))
  rw [PutUnit.ending, if_pos hmel, PutUnit.settled_of_pending hpending, howes, owed, List.drop_zero, hmark]
  rfl

/-- What an encoder makes of its messages is `Encoder.encoded` of their bits. -/
theorem Encoder.outputs (h : e.Legal) (hi : e.fsm = .idle) {mel : Nat} (hmel : 1 ≤ mel) :
    encoderUnit.Outputs Encoder.eat e.Packs heldBits bitsOfByte (e.obs * e.b) e.resetCursors e.encoded mel where
  toHolds := encoder_holds e
  restart := ⟨h.packs_resetCursors hi, heldBits_resetCursors e⟩
  full x v hx hfull := by
    obtain ⟨hpacked, hlegal, hidle⟩ := hx
    have hcap : x.obs * x.b = e.obs * e.b := by obtain ⟨_, _, _, rfl⟩ := hpacked; rfl
    have hroom := hlegal.room hidle
    rw [← heldBits_length] at hroom
    have hlength : (heldBits x ++ bitsOfByte v).length = x.obs * x.b := by
      rw [List.length_append, bitsOfByte_length] at hfull ⊢
      omega
    obtain ⟨hfeed, hblock⟩ := Encoder.feed_of_full hlegal hidle v (by simpa using hlength)
    refine ⟨_, hpacked.resetCursors ▸ hfeed, fun l => ?_⟩
    rw [← hpacked.encoded, Encoder.encoded, symbolsOfBits_append (hlegal.1.bits hlegal.2).1 _ hlength, padded_append _ _ hblock]
    rfl
  ending x hx := by
    obtain ⟨hpacked, hlegal, hidle⟩ := hx
    rw [Encoder.ending_eq hlegal hidle hmel, hpacked.resetCursors, hpacked.encoded]

/-- A message put whole into an idle legal encoder. -/
theorem Encoder.ideal_eq (h : e.Legal) (hi : e.fsm = .idle) {mel : Nat} (hmel : 1 ≤ mel) (l : List Byte) :
    encoderUnit.ideal encoderFeed mel e l =
      (e.resetCursors, (e.encoded (heldBits e ++ bitsOf l)).map .byte ++ endItem mel) :=
  (Encoder.outputs h hi hmel).ideal_eq (.refl h hi) l

end

/-- A configured encoder encodes by the alphabet and padding it was given (R211). -/
theorem configuredEncoder_encoded {b : Nat} (padOn : Bool) (pad : Byte) {alphabet : List Byte} (h7 : b ≤ 7)
    (hl : alphabet.length = 2 ^ b) (l : List Bool) : (configuredEncoder b padOn pad alphabet).encoded l =
      padded padOn pad (encoderBlockSize b) (symbolsOfBits b alphabet l) := by
  rw [← symbolsOfBits_fillBuffer (hl.trans_le (alphabetSize_le h7))]
  cases padOn <;> rfl

/-- A `BENC_PUT` that goes through adds to its port, and leaves as its encoder, what its message makes of them. -/
theorem State.encoderRun_ideal {s : State} {n : BitVec 4} {k : Bool} {m : Byte} (hpos : s.latch.pos = 0)
    (hgo : (s.encoderRun n k m).1 = .go) :
    ∃ es, (s.encoderRun n k m).2.port.history = (s.portE n).history ++ es ∧
      encoderUnit.ideal encoderFeed m.toNat (s.encoder n) (s.mem.readN s.addr0 s.len3) =
        ((s.encoderRun n k m).2.unit, streamOf es) := by
  obtain ⟨-, -, es, hhistory, hideal⟩ := encoderUnit_streams.run_go (j := s.putJob .encoder n k m)
    (r := ⟨s.encoder n, s.portE n, s.latch.pos⟩) trivial (by simp [hpos]) hgo
  rw [PutJob.rest_eq_drop, hpos, List.drop_zero] at hideal
  exact ⟨es, hhistory, by rw [State.encoderRun, hpos]; exact hideal⟩

end Sys2Proof.Machine
end

section
/-! SUPPORT. `BENC_INIT` (spec/45_basen_encoder.md R211): what it does once its checks pass, and the alphabet it leaves. -/

namespace Sys2Proof.Machine

open Sys2Proof.Statements

section
variable {s : State} {n : BitVec 4} {b : BitVec 3} {p f : Bool} {pad : Byte}

theorem State.encoder_setEncoder_other (e : Encoder) {m : BitVec 4} (h : m ≠ n) : (s.setEncoder n e).encoder m = s.encoder m :=
  entry_setEntry_otherInstance _ _ _ h

theorem exec_bencInit (hb : 1 ≤ b.toNat) (hfits : Fits s.addr0 (2 ^ b.toNat)) :
    exec (.bencInit n b true p f pad) s = .next
      ((s.setEncoder n (configuredEncoder b.toNat (p && !f) pad (s.mem.readN s.addr0 (2 ^ b.toNat)))).finish
        (BitVec.ofNat 32 (encoderBlockSize b.toNat))) := by
  refine State.guarded_of_pass (cs := bencInitChecks b true s) fun c hc => ?_
  rcases List.mem_append.mp (show c ∈ [_, _] ++ [_] from hc) with hc | hc
  · exact baseNInitFlagChecks_pass hb c hc
  · rw [List.mem_singleton.mp hc]
    exact (rangeCheck_passes_iff_fits _ _ _).mpr hfits

end

/-- The symbols copied from memory, and zeros past them. -/
theorem configuredEncoder_alphabet {b : Nat} (h7 : b ≤ 7) (padOn : Bool) (pad : Byte) (m : Memory) (a j : Nat) :
    entry (configuredEncoder b padOn pad (m.readN a (2 ^ b))).alphabet j 0 = if j < 2 ^ b then m.read (a + j) else 0 := by
  have hlen : (m.readN a (2 ^ b)).length = 2 ^ b := Memory.readN_length m a _
  refine (entry_fillBuffer (m.readN a (2 ^ b)) 0 j (hlen.trans_le (alphabetSize_le h7))).trans ?_
  split
  · exact Memory.readN_getD m a _ j 0 ‹_›
  · exact List.getD_eq_default _ _ (by omega)

end Sys2Proof.Machine
end

section
/-! PROOF. The statements of spec/45_basen_encoder.md. -/

namespace Sys2Proof.Proofs

open Sys2Proof.Machine Sys2Proof.Statements

/-- Settles O42: the message's bits are encoded group by group as they come in, which leaves the encoder at reset, as it
was when it was configured. -/
theorem encoderEncodesWholeMessages : Obligations.EncoderEncodesWholeMessages := by
  intro n k m s b alphabet padOn pad hn hs hpos hfits hmel h1 h7 hl hconf htakes
  have hlegal : (s.encoder n).Legal := by rw [hconf]; exact ⟨configuredEncoder_inv b padOn pad alphabet h1 h7 hl, rfl⟩
  have hidle : (s.encoder n).fsm = .idle := by rw [hconf]; rfl
  have hreset : (s.encoder n).resetCursors = s.encoder n := by rw [hconf]; rfl
  have hempty : heldBits (s.encoder n) = [] := by rw [hconf]; rfl
  have hgo := s.encoderRun_go (k := k) (m := m) hlegal.1 hlegal.2 htakes
  obtain ⟨es, hhistory, hideal⟩ := s.encoderRun_ideal hpos hgo
  obtain ⟨-, hresidual⟩ := s.encoderRun_end hpos hgo
  obtain ⟨t, hexec, hframe, hresult, hunit, hport⟩ := exec_bencPut (k := k) (m := m) hn hs hlegal.2 hfits (by rw [hgo]; nofun)
  rw [Encoder.ideal_eq hlegal hidle hmel, hreset, hempty, List.nil_append] at hideal
  obtain ⟨hsame, hstream⟩ := Prod.mk.inj hideal
  refine ⟨t, hexec, ?status, ?result, hunit.trans hsame.symm, ?stream⟩
  case status => rw [hframe, hgo]; rfl
  case result =>
    rw [hresidual, hidle] at hresult
    exact BitVec.eq_of_toNat_eq hresult
  case stream =>
    rw [hport, hhistory, streamOf_append, ← hstream, hconf, configuredEncoder_encoded padOn pad h7 hl, ← List.append_assoc]
    rfl

/-- Settles O39: the tables by evaluation, the equation of the two block sizes from `blockSizes`. -/
theorem blockSizesAreAsTabulated : Obligations.BlockSizesAreAsTabulated :=
  ⟨by decide, by decide, fun b h1 h7 => (blockSizes b h1 h7).1⟩

/-- Settles O40: the checks pass, and the encoder named by `INST` is the configured one. -/
theorem bencInitConfiguresEncoder : Obligations.BencInitConfiguresEncoder := by
  intro n b p f pad s hn hs hb hfits
  have h7 : b.toNat ≤ 7 := Nat.le_of_lt_succ b.isLt
  obtain ⟨-, -, hobs, -⟩ := blockSizes b.toNat hb h7
  refine ⟨_, exec_bencInit hb hfits, ?frame, ?result, ?encoder⟩
  case frame => rw [← finish_eq_endedOk hs]; rfl
  case result => rw [State.finish_result, BitVec.toNat_ofNat, Nat.mod_eq_of_lt (by omega)]
  case encoder =>
    simp only [State.finish_encoder, State.encoder_setEncoder _ _ _ hn, configuredEncoder_alphabet h7]
    exact ⟨rfl, rfl, rfl, fun j hj => if_pos hj, fun j hj => if_neg (Nat.not_lt.mpr hj), rfl, rfl, rfl, rfl, rfl, rfl, rfl, rfl,
      rfl, fun m hm => State.encoder_setEncoder_other _ hm⟩

/-- Settles O41: bit by bit, in the room that a legal idle encoder has for a byte. -/
theorem packByteAppendsBits : Obligations.PackByteAppendsBits := by
  intro e v hinv hv hi
  obtain ⟨buf, p, q, heq, -⟩ := packByte_spec ⟨hinv, hv⟩ hi v
  exact ⟨heldBits_packByte ⟨hinv, hv⟩ hi v, by rw [heq]⟩

end Sys2Proof.Proofs
end

section
/-! SUPPORT. The table builder (spec/46_basen_decoder.md R230): the slots that an alphabet's symbols claim, and the scratch as
it holds more and more of those claims. -/

namespace Sys2Proof.Machine

open Sys2Proof.Statements

/-! ### Claims -/

/-- The slots that symbols claim, each with the number of its symbol, the first of which is `v`. -/
def claims (ci : Bool) (v : Nat) (symbols : List Byte) : List (Byte × Nat) :=
  (symbols.zipIdx v).flatMap fun x => (slotsOf ci x.1).map (·, x.2)

section
variable {ci : Bool} {v : Nat} {symbols : List Byte}

theorem claims_cons (ci : Bool) (v : Nat) (c : Byte) (symbols : List Byte) :
    claims ci v (c :: symbols) = (slotsOf ci c).map (·, v) ++ claims ci (v + 1) symbols := rfl

theorem map_fst_claims (ci : Bool) (v : Nat) (symbols : List Byte) :
    (claims ci v symbols).map Prod.fst = symbols.flatMap (slotsOf ci) := by
  induction symbols generalizing v with
  | nil => rfl
  | cons c symbols ih =>
    rw [claims_cons, List.map_append, ih, List.flatMap_cons, List.map_map]
    congr 1
    exact List.map_id _

theorem mem_claims {q : Byte} {i : Nat} (hi : i < symbols.length) (hq : q ∈ slotsOf ci (symbols.getD i 0)) :
    (q, i) ∈ claims ci 0 symbols := by
  rw [List.getD_eq_getElem _ _ hi] at hq
  refine List.mem_flatMap.mpr ⟨(symbols[i], i), ?_, List.mem_map.mpr ⟨q, hq, rfl⟩⟩
  exact List.mk_mem_zipIdx_iff_getElem?.mpr (List.getElem?_eq_getElem hi)

end

/-! ### The scratch -/

/-- The scratch `l` holds the claims `ps`: no slot is claimed twice, the claimed ones are used and have their symbol's
number, the others are as at the start. -/
structure LookupScratch.Holds (l : LookupScratch) (ps : List (Byte × Nat)) : Prop where
  nodup : (ps.map Prod.fst).Nodup
  used : ∀ q : Byte, entry l.used q.toNat false = true ↔ q ∈ ps.map Prod.fst
  claimed : ∀ p ∈ ps, entry l.table p.1.toNat 0xFF#8 = BitVec.ofNat 8 p.2
  free : ∀ q : Byte, q ∉ ps.map Prod.fst → entry l.table q.toNat 0xFF#8 = 0xFF#8
  count : l.slotCount = ps.length

/-- The scratch with slot `q` claimed for symbol `v`. -/
def LookupScratch.claim (l : LookupScratch) (q : Byte) (v : Nat) : LookupScratch :=
  ⟨setEntry l.table q.toNat (BitVec.ofNat 8 v), setEntry l.used q.toNat true⟩

theorem LookupScratch.start_holds : LookupScratch.start.Holds [] where
  nodup := List.nodup_nil
  used q := by
    rw [LookupScratch.start, entry_replicate]
    exact iff_of_false nofun nofun
  claimed := nofun
  free q _ := entry_replicate _ _
  count := by
    rw [LookupScratch.slotCount, LookupScratch.start, Vector.toList_replicate]
    exact List.count_eq_zero.mpr fun h => nomatch List.eq_of_mem_replicate h

theorem entry_setEntry_byte {α : Type} (v : Vector α 256) (q q' : Byte) (a d : α) :
    entry (setEntry v q.toNat a) q'.toNat d = if q = q' then a else entry v q'.toNat d := by
  have hlt : q.toNat < 256 := q.isLt
  simp only [entry_setEntry, BitVec.toNat_inj, hlt, and_true]

section
variable {l l' : LookupScratch} {ps : List (Byte × Nat)} {v : Nat}

/-- A slot claimed that was not used before. -/
theorem LookupScratch.Holds.claim (h : l.Holds ps) {q : Byte} (hq : q ∉ ps.map Prod.fst) (v : Nat) :
    (l.claim q v).Holds (ps ++ [(q, v)]) where
  nodup := by
    rw [List.map_append]
    exact h.nodup.append (List.nodup_singleton q) (List.disjoint_singleton.mpr hq)
  used q' := by
    rw [LookupScratch.claim, entry_setEntry_byte, List.map_append, List.mem_append, ← h.used q', List.map_singleton,
      List.mem_singleton]
    by_cases he : q = q'
    · rw [if_pos he]
      exact iff_of_true rfl (.inr he.symm)
    · rw [if_neg he]
      exact (or_iff_left (Ne.symm he)).symm
  claimed p hp := by
    rw [LookupScratch.claim, entry_setEntry_byte]
    rcases List.mem_append.mp hp with hp | hp
    · rw [if_neg fun he => hq (List.mem_map.mpr ⟨p, hp, he.symm⟩), h.claimed p hp]
    · rw [List.mem_singleton.mp hp, if_pos rfl]
  free q' hq' := by
    rw [List.map_append, List.mem_append, not_or] at hq'
    rw [LookupScratch.claim, entry_setEntry_byte, if_neg fun he => hq'.2 (List.mem_singleton.mpr he.symm), h.free q' hq'.1]
  count := by
    have hlt : q.toNat < l.used.toList.length := by rw [Vector.length_toList]; exact q.isLt
    have hfree : l.used.toList[q.toNat] = false := by
      rw [← List.getD_eq_getElem _ false hlt, ← Bool.not_eq_true]
      exact mt (h.used q).mp hq
    have hcount := h.count
    rw [LookupScratch.slotCount] at hcount
    rw [LookupScratch.slotCount, LookupScratch.claim, setEntry_toList, List.count_set hlt, hfree, hcount, List.length_append]
    rfl

theorem fillSlots_cons (v : Nat) (q : Byte) (qs : List Byte) (l : LookupScratch) :
    fillSlots v (q :: qs) l = if entry l.used q.toNat false then none else fillSlots v qs (l.claim q v) := rfl

/-- The slots of a symbol that could all be filled. -/
theorem fillSlots_holds (h : l.Holds ps) {qs : List Byte} (hfill : fillSlots v qs l = some l') :
    l'.Holds (ps ++ qs.map (·, v)) := by
  induction qs generalizing l ps with
  | nil =>
    obtain rfl : l = l' := Option.some.inj hfill
    rwa [List.map_nil, List.append_nil]
  | cons q qs ih =>
    rw [fillSlots_cons] at hfill
    split at hfill
    · exact absurd hfill nofun
    · have hnext := ih (h.claim (mt (h.used q).mpr ‹_›) v) hfill
      rwa [List.append_assoc] at hnext

/-- Slots that are free and different can all be filled. -/
theorem exists_fillSlots (h : l.Holds ps) {qs : List Byte} (hnodup : (ps.map Prod.fst ++ qs).Nodup) :
    ∃ l', fillSlots v qs l = some l' := by
  induction qs generalizing l ps with
  | nil => exact ⟨l, rfl⟩
  | cons q qs ih =>
    have hq : q ∉ ps.map Prod.fst := fun hmem => List.disjoint_of_nodup_append hnodup hmem (List.mem_cons_self ..)
    rw [fillSlots_cons, if_neg (mt (h.used q).mp hq)]
    exact ih (h.claim hq v) (by rwa [List.map_append, List.append_assoc])

theorem buildLoop_cons (ci : Bool) (v : Nat) (c : Byte) (cs : List Byte) (l : LookupScratch) :
    buildLoop ci v (c :: cs) l = (fillSlots v (slotsOf ci c) l).bind (buildLoop ci (v + 1) cs) := by
  rw [buildLoop]
  cases fillSlots v (slotsOf ci c) l <;> rfl

variable {ci : Bool} {symbols : List Byte}

theorem buildLoop_holds (h : l.Holds ps) (hbuild : buildLoop ci v symbols l = some l') :
    l'.Holds (ps ++ claims ci v symbols) := by
  induction symbols generalizing l ps v with
  | nil =>
    obtain rfl : l = l' := Option.some.inj hbuild
    rwa [claims, List.zipIdx_nil, List.flatMap_nil, List.append_nil]
  | cons c cs ih =>
    rw [buildLoop_cons, Option.bind_eq_some_iff] at hbuild
    obtain ⟨l₁, hfill, hrest⟩ := hbuild
    rw [claims_cons, ← List.append_assoc]
    exact ih (fillSlots_holds h hfill) hrest

theorem exists_buildLoop (h : l.Holds ps) (hnodup : (ps.map Prod.fst ++ symbols.flatMap (slotsOf ci)).Nodup) :
    ∃ l', buildLoop ci v symbols l = some l' := by
  induction symbols generalizing l ps v with
  | nil => exact ⟨l, rfl⟩
  | cons c cs ih =>
    rw [List.flatMap_cons, ← List.append_assoc] at hnodup
    obtain ⟨l₁, hfill⟩ := exists_fillSlots (v := v) h hnodup.of_append_left
    rw [buildLoop_cons, hfill]
    refine ih (fillSlots_holds h hfill) ?_
    rwa [List.map_append, List.map_map, Function.comp_def, List.map_id']

/-! ### The table -/

/-- The table that is built holds the claims of the alphabet's symbols. -/
theorem buildLookup_holds (h : buildLookup ci symbols = some l) : l.Holds (claims ci 0 symbols) :=
  buildLoop_holds LookupScratch.start_holds h

/-- A table is built exactly when no slot is claimed twice. -/
theorem exists_buildLookup_iff : (∃ l, buildLookup ci symbols = some l) ↔ (symbols.flatMap (slotsOf ci)).Nodup := by
  refine ⟨fun ⟨l, h⟩ => ?_, fun h => exists_buildLoop LookupScratch.start_holds h⟩
  rw [← map_fst_claims ci 0]
  exact (buildLookup_holds h).nodup

/-- A slot that a symbol claims has that symbol's number. -/
theorem buildLookup_entry_of_slot (h : buildLookup ci symbols = some l) {q : Byte} {i : Nat} (hi : i < symbols.length)
    (hq : q ∈ slotsOf ci (symbols.getD i 0)) : entry l.table q.toNat 0xFF#8 = BitVec.ofNat 8 i :=
  (buildLookup_holds h).claimed (q, i) (mem_claims hi hq)

/-- A slot that no symbol claims has the sentinel. -/
theorem buildLookup_entry_of_free (h : buildLookup ci symbols = some l) {q : Byte} (hq : q ∉ symbols.flatMap (slotsOf ci)) :
    entry l.table q.toNat 0xFF#8 = 0xFF#8 :=
  (buildLookup_holds h).free q (by rwa [map_fst_claims])

theorem buildLookup_slotCount (h : buildLookup ci symbols = some l) :
    l.slotCount = (symbols.flatMap (slotsOf ci)).length := by
  rw [(buildLookup_holds h).count, ← map_fst_claims ci 0, List.length_map]

theorem LookupScratch.slotCount_le (l : LookupScratch) : l.slotCount ≤ 256 :=
  List.count_le_length.trans_eq Vector.length_toList

end

/-! ### The command -/

theorem exec_bdecBuildLookup {s : State} {ci : Bool} {l : LookupScratch} (hlen : s.len3 ≤ 128) (h0 : Fits s.addr0 s.len3)
    (h2 : Fits s.addr2 256) (hbuild : buildLookup ci (s.mem.readN s.addr0 s.len3) = some l) :
    exec (.bdecBuildLookup ci) s = .next
      ((s.setMem (s.mem.writeN s.addr2 l.table.toList)).finish (BitVec.ofNat 32 l.slotCount)) := by
  have hexec : exec (.bdecBuildLookup ci) s = s.guarded (buildLookupChecks ci s)
      ((s.setMem (s.mem.writeN s.addr2 l.table.toList)).finish (BitVec.ofNat 32 l.slotCount)) := by
    show execBdecBuildLookup ci s = _
    rw [execBdecBuildLookup, hbuild]
    rfl
  rw [hexec]
  refine State.guarded_of_pass ?_
  simp only [buildLookupChecks, List.forall_mem_cons, rangeCheck_passes_iff_fits, hbuild]
  exact ⟨decide_eq_false (Nat.not_lt.mpr hlen), h0, h2, rfl, nofun⟩

/-- What an entry of a buffer is does not depend on what stands for the entries past its end. -/
theorem entry_default {α : Type} {n : Nat} (v : Vector α n) {i : Nat} (h : i < n) (d d' : α) : entry v i d = entry v i d' := by
  have hlen : i < v.toList.length := by rwa [Vector.length_toList]
  rw [entry, entry, List.getD_eq_getElem _ _ hlen, List.getD_eq_getElem _ _ hlen]

/-- What a load of an entry of a table just written returns. -/
theorem Memory.read_writeN_table {m : Memory} (hm : m.Wf) (a : Nat) (table : Vector Byte 256) (q : Byte) :
    (m.writeN a table.toList).read (a + q.toNat) = entry table q.toNat 0xFF#8 := by
  rw [Memory.read_writeN_inside m a q.toNat table.toList hm (by rw [Vector.length_toList]; exact q.isLt)]
  exact entry_default table q.isLt 0 0xFF#8

end Sys2Proof.Machine
end

section
/-! SUPPORT. `BDEC_INIT` (spec/46_basen_decoder.md R231): what it does once its checks pass, and the table it copies. -/

namespace Sys2Proof.Machine

open Sys2Proof.Statements

section
variable {s : State} {n : BitVec 4} {b : BitVec 3}

theorem State.decoder_setDecoder_other (d : Decoder) {m : BitVec 4} (h : m ≠ n) : (s.setDecoder n d).decoder m = s.decoder m :=
  entry_setEntry_otherInstance _ _ _ h

theorem exec_bdecInit (hb : 1 ≤ b.toNat) (hfits : Fits s.addr0 256) :
    exec (.bdecInit n b true) s = .next
      ((s.setDecoder n (configuredDecoder b.toNat (s.mem.readN s.addr0 256))).finish
        (BitVec.ofNat 32 (decoderBlockSize b.toNat))) := by
  refine State.guarded_of_pass (cs := bdecInitChecks b true s) fun c hc => ?_
  rcases List.mem_append.mp (show c ∈ [_, _] ++ [_] from hc) with hc | hc
  · exact baseNInitFlagChecks_pass hb c hc
  · rw [List.mem_singleton.mp hc]
    exact (rangeCheck_passes_iff_fits _ _ _).mpr hfits

end

/-- The table of a configured decoder is the one it was given (R231). -/
theorem configuredDecoder_lookup {lookup : List Byte} (b : Nat) (hl : lookup.length = 256) :
    (configuredDecoder b lookup).lookup.toList = lookup := by
  show (fillBuffer 256 lookup 0xFF#8).toList = lookup
  rw [fillBuffer_toList, hl, List.take_of_length_le hl.le, Nat.sub_self, List.replicate_zero, List.append_nil]

/-- The table copied from memory. -/
theorem entry_configuredDecoder_lookup (b : Nat) (m : Memory) (a : Nat) {j : Nat} (hj : j < 256) :
    entry (configuredDecoder b (m.readN a 256)).lookup j 0 = m.read (a + j) := by
  have hlen : (m.readN a 256).length = 256 := Memory.readN_length m a 256
  rw [entry, configuredDecoder_lookup b hlen, Memory.readN_getD m a 256 j 0 hj]

end Sys2Proof.Machine
end

section
/-! SUPPORT. Messages put into a decoder whole (spec/46_basen_decoder.md R232 to R234): its output is the whole bytes of the
bits that the table gives, whatever groups it makes of them on the way. -/

namespace Sys2Proof.Machine

open Sys2Proof.Statements

/-! ### Whole bytes (R234) -/

/-- Whole bytes come out apart from those that follow them. -/
theorem wholeBytes_append {m : Nat} {x : List Bool} (hx : x.length = m * 8) (l : List Bool) :
    wholeBytes (x ++ l) = wholeBytes x ++ wholeBytes l := by
  rw [wholeBytes, cut_append (by decide) hx, List.filter_append, List.map_append, wholeBytes, wholeBytes]

/-! ### The decoder -/

theorem decodedByte_length_le (b : Nat) (lookup : Vector Byte 256) (c : Byte) : (decodedByte b lookup c).length ≤ b := by
  rw [decodedByte]
  split
  · exact Nat.zero_le b
  · rw [topBits_length]

/-- What the end of a message of a lawful unit whose emission is then whole, at level `mel - 1`, brings out (R195). -/
theorem PutUnit.Lawful.ending_eq {U : Type} {u : PutUnit U} (hu : u.Lawful) {mel : Nat} {x : U} (hmel : 1 ≤ mel)
    (hlevel : u.pendMel (u.beginEnd x mel) = mel - 1) (hoff : u.pendOff (u.beginEnd x mel) = 0) :
    u.ending mel x = (u.complete (u.beginEnd x mel), (u.pending (u.beginEnd x mel)).map .byte ++ endItem mel) := by
  have hpending := hu.idle_beginEnd x mel
  have hmark : endMark (mel - 1) = endItem mel := by
    simp only [endMark, endItem, show 1 ≤ mel - 1 ↔ 2 ≤ mel by omega]
  rw [PutUnit.ending, if_pos hmel, PutUnit.settled_of_pending hpending, PutUnit.owes_of_pending hpending, hlevel, hoff, owed,
    List.drop_zero, hmark]

/-- What a byte that leaves a whole emission without a message end pending brings out, and what it leaves (R192). -/
theorem PutUnit.feedOf_of_pending {U : Type} {u : PutUnit U} {eat : U → Byte → U} {x : U} {v : Byte}
    (hpending : u.idle (eat x v) = false) (hlevel : u.pendMel (eat x v) = 0) (hoff : u.pendOff (eat x v) = 0) :
    u.feedOf eat x v = (u.complete (eat x v), (u.pending (eat x v)).map .byte) := by
  rw [PutUnit.feedOf, PutUnit.settled_of_pending hpending, PutUnit.owes_of_pending hpending, hlevel, hoff, owed, List.drop_zero,
    endMark, if_neg (by decide), List.append_nil]

section
variable {d : Decoder}

theorem Decoder.Packed.resetCursors {d' : Decoder} (h : d.Packed d') : d'.resetCursors = d.resetCursors := by
  obtain ⟨_, _, _, rfl⟩ := h
  rfl

/-- An idle legal decoder is its reset one but for what it holds (R41). -/
theorem Decoder.Legal.packs_resetCursors (h : d.Legal) (hi : d.fsm = .idle) : d.Packs d.resetCursors := by
  obtain ⟨hlen, hoff, hmel⟩ := h.1.idlePending hi
  refine ⟨⟨Vector.replicate 7 0, 0, 0, ?_⟩, h.resetCursors, rfl⟩
  rw [Decoder.resetCursors, hlen, hoff, hmel, hi]

theorem heldByteBits_resetCursors (d : Decoder) : heldByteBits d.resetCursors = [] := rfl

/-- The bits of a byte that fill the group of an idle decoder fill it exactly, since it holds whole symbols (R235). -/
theorem Decoder.length_eq_of_full (h : d.Legal) (hi : d.fsm = .idle) (c : Byte)
    (hfull : 8 * d.obs ≤ (heldByteBits d ++ decodedByte d.b d.lookup c).length) :
    (heldByteBits d ++ decodedByte d.b d.lookup c).length = 8 * d.obs := by
  have hroom := h.room hi
  have hbits := decodedByte_length_le d.b d.lookup c
  rw [← heldByteBits_length] at hroom
  rw [List.length_append] at hfull ⊢
  omega

/-- What a byte that fills the group of an idle decoder brings out, and what it leaves (R232). -/
theorem Decoder.feed_of_full (h : d.Legal) (hi : d.fsm = .idle) (c : Byte)
    (hfull : (heldByteBits d ++ decodedByte d.b d.lookup c).length = 8 * d.obs) :
    decoderFeed d c = (d.resetCursors, (wholeBytes (heldByteBits d ++ decodedByte d.b d.lookup c)).map .byte) := by
  have hroom : (heldByteBits d).length < 8 * d.obs := by
    rw [heldByteBits_length]
    have := h.room hi
    obtain ⟨h1, -⟩ := h.1.bits h.2
    omega
  obtain ⟨buf, p, q, heat, hbuf⟩ := Decoder.eat_of_full h hi c hroom hfull
  refine (PutUnit.feedOf_of_pending (by rw [heat]; rfl) (by rw [heat]; rfl) (by rw [heat]; rfl)).trans ?_
  rw [heat, ← hbuf]
  rfl

/-- What the end of a message brings out of a legal decoder, and what it leaves (R234). -/
theorem Decoder.ending_eq (h : d.Legal) {mel : Nat} (hmel : 1 ≤ mel) :
    decoderUnit.ending mel d = (d.resetCursors, (wholeBytes (heldByteBits d)).map .byte ++ endItem mel) := by
  rw [decoderUnit_lawful.ending_eq hmel rfl rfl]
  exact congrArg (fun x : List Byte => (d.resetCursors, x.map StreamItem.byte ++ endItem mel)) (Decoder.pending_openEnd h mel)

/-- What a decoder makes of its messages is the whole bytes of their bits. -/
theorem Decoder.outputs (h : d.Legal) (hi : d.fsm = .idle) {mel : Nat} (hmel : 1 ≤ mel) :
    decoderUnit.Outputs Decoder.eat d.Packs heldByteBits (decodedByte d.b d.lookup) (8 * d.obs) d.resetCursors wholeBytes mel where
  toHolds := decoder_holds d
  restart := ⟨h.packs_resetCursors hi, heldByteBits_resetCursors d⟩
  full x c hx hfull := by
    obtain ⟨hpacked, hlegal, hidle⟩ := hx
    have hconf : d.b = x.b ∧ d.lookup = x.lookup ∧ d.obs = x.obs := by
      obtain ⟨_, _, _, rfl⟩ := hpacked
      exact ⟨rfl, rfl, rfl⟩
    obtain ⟨hb, hlookup, hobs⟩ := hconf
    rw [hb, hlookup, hobs] at hfull
    have hlength := Decoder.length_eq_of_full hlegal hidle c hfull
    rw [hb, hlookup, ← hpacked.resetCursors]
    exact ⟨_, Decoder.feed_of_full hlegal hidle c hlength, wholeBytes_append (hlength.trans (Nat.mul_comm 8 x.obs))⟩
  ending x hx := by
    obtain ⟨hpacked, hlegal, -⟩ := hx
    rw [Decoder.ending_eq hlegal hmel, hpacked.resetCursors]

end

/-- A message put whole into a configured decoder. -/
theorem configuredDecoder_ideal {b mel : Nat} {lookup : List Byte} (h1 : 1 ≤ b) (h7 : b ≤ 7) (hl : lookup.length = 256)
    (hmel : 1 ≤ mel) (l : List Byte) : decoderUnit.ideal decoderFeed mel (configuredDecoder b lookup) l =
      (configuredDecoder b lookup, (wholeBytes (decodedBits b lookup l)).map .byte ++ endItem mel) := by
  have hlegal : (configuredDecoder b lookup).Legal := ⟨configuredDecoder_inv b lookup h1 h7, rfl⟩
  rw [(Decoder.outputs hlegal rfl hmel).ideal_eq (.refl hlegal rfl), ← decodedBits_eq_flatMap, configuredDecoder_lookup b hl]
  rfl

/-- A `BDEC_PUT` that goes through adds to its port, and leaves as its decoder, what its message makes of them. -/
theorem State.decoderRun_ideal {s : State} {n : BitVec 4} {k : Bool} {m : Byte} (hpos : s.latch.pos = 0)
    (hgo : (s.decoderRun n k m).1 = .go) :
    ∃ es, (s.decoderRun n k m).2.port.history = (s.portD n).history ++ es ∧
      decoderUnit.ideal decoderFeed m.toNat (s.decoder n) (s.mem.readN s.addr0 s.len3) =
        ((s.decoderRun n k m).2.unit, streamOf es) := by
  obtain ⟨-, -, es, hhistory, hideal⟩ := decoderUnit_streams.run_go (j := s.putJob .decoder n k m)
    (r := ⟨s.decoder n, s.portD n, s.latch.pos⟩) trivial (by simp [hpos]) hgo
  rw [PutJob.rest_eq_drop, hpos, List.drop_zero] at hideal
  exact ⟨es, hhistory, by rw [State.decoderRun, hpos]; exact hideal⟩

end Sys2Proof.Machine
end

section
/-! SUPPORT. Whole messages against a sink that takes everything (spec/44_filter_interface.md R192, R196): what a codec outputs
is what it makes of the message's bits. -/

namespace Sys2Proof.Machine

open Sys2Proof.Statements

section
variable {U : Type} {u : PutUnit U} {loop : PutJob → Nat → PutRun U → Flow × PutRun U} {eat : U → Byte → U}
  {K : U → Prop} {held : U → List Bool} {bits : Byte → List Bool} {cap size : Nat} {fresh x : U} {out : List Bool → List Byte}

/-- A codec's put goes through when the sink takes its offers. -/
theorem PutUnit.Eats.run_go (he : u.Eats loop eat) (hu : u.EmitsUpTo size)
    (heat : ∀ x v, u.idle x = true → u.idle (eat x v) = false → u.pendOff (eat x v) = 0) {j : PutJob} {r : PutRun U}
    (hoff : u.OffLe r.unit) (h : TakesAll r.port (j.n + 2) size) :
    (u.run (fun j r => loop j (j.n - r.pos) r) j r).1 = .go :=
  hu.run_go (need := j.n) (fun _ hi hr => he.loop_go hu heat _ hi (takesAll_mono hr (Nat.add_le_add_right (Nat.sub_le _ _) 1)))
    he.lawful hoff h

@[simp] theorem bytesOf_map_byte (l : List Byte) : bytesOf (l.map .byte) = l := by
  rw [bytesOf, List.filterMap_map]
  exact List.filterMap_some

/-- The sink of `outputBytes` takes every offer of at most 255 bytes. -/
theorem outputBytes_takesAll (l : List Byte) (h : size ≤ 255) :
    TakesAll ⟨[], List.replicate (2 * l.length + 2) (l.length + 255), 0⟩ (l.length + 2) size := by
  refine ⟨by rw [List.length_replicate]; omega, fun t ht => ?_⟩
  rw [List.eq_of_mem_replicate ht]
  omega

/-- What a codec outputs for a message, from what it makes of the message's bits. -/
theorem PutUnit.Outputs.outputBytes_eq (ho : u.Outputs eat K held bits cap fresh out 1) (he : u.Eats loop eat)
    (hu : u.EmitsUpTo size) (hsize : size ≤ 255)
    (heat : ∀ x v, u.idle x = true → u.idle (eat x v) = false → u.pendOff (eat x v) = 0) (hK : K x) (hoff : u.OffLe x)
    (l : List Byte) : outputBytes u (fun j r => loop j (j.n - r.pos) r) x l = out (held x ++ l.flatMap bits) := by
  have hgo := he.run_go hu heat (j := messageJob l true 1 fun _ => 0)
    (r := messageStart x (List.replicate (2 * l.length + 2) (l.length + 255))) hoff (outputBytes_takesAll l hsize)
  rcases hput : putMessage u (fun j r => loop j (j.n - r.pos) r) x l true 1 (fun _ => 0)
    (List.replicate (2 * l.length + 2) (l.length + 255)) with ⟨f, y, consumed, stream⟩
  obtain ⟨hflow, -⟩ := putMessage_eq_iff.mp hput
  obtain rfl : f = .go := hflow.symm.trans hgo
  obtain ⟨hideal, -⟩ := he.streams.putMessage_go trivial hput
  rw [ho.ideal_eq hK] at hideal
  obtain ⟨-, rfl⟩ := Prod.mk.inj hideal
  rw [outputBytes, hput, show endItem 1 = [] from rfl, List.append_nil, bytesOf_map_byte]

end

/-- A block that a byte leaves pending is whole. -/
theorem encoderUnit_pendOff_eat (e : Encoder) (v : Byte) (hi : encoderUnit.idle e = true)
    (hpending : encoderUnit.idle (e.eat v) = false) : encoderUnit.pendOff (e.eat v) = 0 := by
  rcases Encoder.eat_cases ((encoderUnit_idle_iff e).mp hi) v with ⟨-, heq, -⟩ | ⟨-, -, hidle⟩
  · rw [heq]
    rfl
  · exact absurd hidle ((encoderUnit_idle_eq_false_iff _).mp hpending)

/-- So is a group. -/
theorem decoderUnit_pendOff_eat (d : Decoder) (c : Byte) (hi : decoderUnit.idle d = true)
    (hpending : decoderUnit.idle (d.eat c) = false) : decoderUnit.pendOff (d.eat c) = 0 := by
  have hne := (decoderUnit_idle_eq_false_iff _).mp hpending
  rcases Decoder.eat_cases ((decoderUnit_idle_iff d).mp hi) c rfl with ⟨-, -, hidle⟩ | ⟨-, -, heq, -⟩ | ⟨-, -, -, hidle⟩
  · exact absurd hidle hne
  · rw [heq]
    rfl
  · exact absurd hidle hne

/-- What a configured encoder outputs. -/
theorem outputBytes_encoder {b : Nat} {alphabet : List Byte} (h1 : 1 ≤ b) (h7 : b ≤ 7) (hl : alphabet.length = 2 ^ b)
    (padOn : Bool) (pad : Byte) (l : List Byte) :
    outputBytes encoderUnit encoderBody (configuredEncoder b padOn pad alphabet) l =
      padded padOn pad (encoderBlockSize b) (symbolsOf b alphabet l) := by
  have hlegal : (configuredEncoder b padOn pad alphabet).Legal := ⟨configuredEncoder_inv b padOn pad alphabet h1 h7 hl, rfl⟩
  refine ((Encoder.outputs hlegal rfl (Nat.le_refl 1)).outputBytes_eq encoderUnit_eats encoderUnit_emitsUpTo (by decide)
    encoderUnit_pendOff_eat (.refl hlegal rfl) (hlegal.1.offLe rfl) l).trans ?_
  rw [configuredEncoder_encoded padOn pad h7 hl]
  rfl

/-- What a configured decoder outputs. -/
theorem outputBytes_decoder {b : Nat} {lookup : List Byte} (h1 : 1 ≤ b) (h7 : b ≤ 7) (hl : lookup.length = 256) (l : List Byte) :
    outputBytes decoderUnit decoderBody (configuredDecoder b lookup) l = wholeBytes (decodedBits b lookup l) := by
  have hlegal : (configuredDecoder b lookup).Legal := ⟨configuredDecoder_inv b lookup h1 h7, rfl⟩
  refine ((Decoder.outputs hlegal rfl (Nat.le_refl 1)).outputBytes_eq decoderUnit_eats decoderUnit_emitsUpTo (by decide)
    decoderUnit_pendOff_eat (.refl hlegal rfl) (hlegal.1.offLe rfl) l).trans ?_
  rw [← decodedBits_eq_flatMap, configuredDecoder_lookup b hl]
  rfl

end Sys2Proof.Machine
end

section
/-! SUPPORT. The round trip of the codecs (spec/46_basen_decoder.md R236, R237): the table gives each symbol's group of bits
back, whatever the case of its letter, and the zeros that fill the last group do not make a byte. -/

namespace Sys2Proof.Machine

open Sys2Proof.Statements

/-! ### Groups of bits as numbers -/

/-- A string of bits as a number, most significant first. -/
def bitsValue (g : List Bool) : Nat := g.foldl (fun v x => 2 * v + x.toNat) 0

/-- A group of bits with its missing low bits 0. -/
def filledGroup (b : Nat) (g : List Bool) : List Bool := g ++ List.replicate (b - g.length) false

theorem groupValue_eq_bitsValue (b : Nat) (g : List Bool) : groupValue b g = bitsValue (filledGroup b g) := rfl

theorem filledGroup_length {b : Nat} {g : List Bool} (h : g.length ≤ b) : (filledGroup b g).length = b := by
  rw [filledGroup, List.length_append, List.length_replicate, Nat.add_sub_cancel' h]

theorem filledGroup_of_length_eq {b : Nat} {g : List Bool} (h : g.length = b) : filledGroup b g = g := by
  rw [filledGroup, h, Nat.sub_self, List.replicate_zero, List.append_nil]

theorem bitsValue_concat (g : List Bool) (x : Bool) : bitsValue (g ++ [x]) = 2 * bitsValue g + x.toNat := by
  simp only [bitsValue, List.foldl_append, List.foldl_cons, List.foldl_nil]

theorem bitsValue_lt (g : List Bool) : bitsValue g < 2 ^ g.length := by
  induction g using List.reverseRecOn with
  | nil => exact Nat.one_pos
  | append_singleton g x ih =>
    have hx := x.toNat_lt
    rw [bitsValue_concat, List.length_append, List.length_singleton, Nat.pow_succ]
    omega

/-- One more low bit of a number is one more bit of the byte that holds it. -/
theorem topBits_ofNat_succ {n : Nat} (hn : n < 8) (v : Nat) (x : Bool) :
    topBits (n + 1) (n + 1) (BitVec.ofNat 8 (2 * v + x.toNat)) = topBits n n (BitVec.ofNat 8 v) ++ [x] := by
  rw [topBits, List.range_succ, List.map_append, topBits, List.map_singleton]
  congr 1
  · refine List.map_congr_left fun k hk => ?_
    rw [List.mem_range] at hk
    have hhalf : (2 * v + x.toNat) / 2 = v := by have := x.toNat_lt; omega
    rw [BitVec.getLsbD_ofNat, BitVec.getLsbD_ofNat, show n + 1 - 1 - k = n - 1 - k + 1 by omega, Nat.testBit_succ, hhalf,
      decide_eq_true (show n - 1 - k + 1 < 8 by omega), decide_eq_true (show n - 1 - k < 8 by omega)]
  · rw [BitVec.getLsbD_ofNat, Nat.add_sub_cancel, Nat.sub_self]
    cases x <;> simp [Nat.testBit_zero, Nat.add_mod]

/-- The bits of the byte that holds the number of a string of at most eight bits. -/
theorem topBits_bitsValue {g : List Bool} (h : g.length ≤ 8) : topBits g.length g.length (BitVec.ofNat 8 (bitsValue g)) = g := by
  induction g using List.reverseRecOn with
  | nil => rfl
  | append_singleton g x ih =>
    rw [List.length_append, List.length_singleton] at h ⊢
    rw [bitsValue_concat, topBits_ofNat_succ h, ih (by omega)]

/-! ### Cutting into groups -/

section
variable {b : Nat}

theorem length_le_of_mem_cut {k : Nat} {l g : List Bool} (hg : g ∈ cut b k l) : g.length ≤ b := by
  induction k generalizing l with
  | zero => exact absurd hg List.not_mem_nil
  | succ k ih =>
    rw [cut] at hg
    split at hg
    · exact absurd hg List.not_mem_nil
    · rcases List.mem_cons.mp hg with rfl | hg
      · exact List.length_take_le b l
      · exact ih hg

/-- The groups of a string of bits, put together again, are the string and fewer than `b` zeros. -/
theorem cut_flatMap_filledGroup (hb : 0 < b) {k : Nat} {l : List Bool} (hk : l.length ≤ k) :
    ∃ z < b, (cut b k l).flatMap (filledGroup b) = l ++ List.replicate z false := by
  induction k generalizing l with
  | zero =>
    obtain rfl : l = [] := List.eq_nil_of_length_eq_zero (Nat.le_zero.mp hk)
    exact ⟨0, hb, rfl⟩
  | succ k ih =>
    by_cases hnil : l = []
    · subst hnil
      exact ⟨0, hb, rfl⟩
    have hpos := List.length_pos_iff.mpr hnil
    simp only [cut, List.isEmpty_iff, hnil, if_false, List.flatMap_cons]
    by_cases hlast : l.length < b
    · refine ⟨b - l.length, by omega, ?_⟩
      rw [List.take_of_length_le hlast.le, List.drop_eq_nil_of_le hlast.le, cut_nil, List.flatMap_nil, List.append_nil,
        filledGroup]
    · obtain ⟨z, hz, heq⟩ := ih (l := l.drop b) (by rw [List.length_drop]; omega)
      refine ⟨z, hz, ?_⟩
      rw [heq, filledGroup_of_length_eq (List.length_take_of_le (Nat.le_of_not_lt hlast)), ← List.append_assoc,
        List.take_append_drop]

end

/-! ### Whole bytes -/

theorem wholeBytes_of_length_lt {l : List Bool} (h : l.length < 8) : wholeBytes l = [] := by
  have hcut : cut 8 l.length l = if l = [] then [] else [l] := cut_flatten_append [] l nofun h (Nat.le_refl _)
  rw [wholeBytes, hcut]
  split
  · rfl
  · simp [h.ne]

theorem wholeBytes_bitsOfByte (v : Byte) : wholeBytes (bitsOfByte v) = [v] := by
  have hcut : cut 8 (bitsOfByte v).length (bitsOfByte v) = [topBits 8 8 v] := rfl
  have hvalue : groupValue 8 (topBits 8 8 v) = v.toNat :=
    groupValue_topBits (Nat.le_refl 8) v.isLt (by simp [Nat.mod_one])
  rw [wholeBytes, hcut, List.filter_cons_of_pos (by simp), List.filter_nil, List.map_singleton, hvalue, BitVec.ofNat_toNat,
    BitVec.setWidth_eq]

/-- The bytes of a message's bits are the message, and fewer than eight bits after them are dropped (R234). -/
theorem wholeBytes_bitsOf_append (l : List Byte) {rest : List Bool} (h : rest.length < 8) : wholeBytes (bitsOf l ++ rest) = l := by
  induction l with
  | nil => exact wholeBytes_of_length_lt h
  | cons v l ih =>
    rw [bitsOf, List.flatMap_cons, List.append_assoc, wholeBytes_append (m := 1) (bitsOfByte_length v), wholeBytes_bitsOfByte,
      ← bitsOf, ih, List.singleton_append]

/-! ### Slots -/

/-- Bit 5 of a byte, in which the two cases of a letter differ, does not matter to whether it is a letter. -/
theorem isLetter_cases : ∀ c : Byte, isLetter (c &&& 0xDF#8) = isLetter c ∧ isLetter (c ||| 0x20#8) = isLetter c := by
  decide +kernel

/-- A byte is in one of the two cases, and both cases have the same upper and the same lower case. -/
theorem bothCases_spec : ∀ c : Byte, (c = c &&& 0xDF#8 ∨ c = c ||| 0x20#8) ∧
    (c &&& 0xDF#8) &&& 0xDF#8 = c &&& 0xDF#8 ∧ (c &&& 0xDF#8) ||| 0x20#8 = c ||| 0x20#8 ∧
    (c ||| 0x20#8) &&& 0xDF#8 = c &&& 0xDF#8 ∧ (c ||| 0x20#8) ||| 0x20#8 = c ||| 0x20#8 := by
  decide +kernel

section
variable {ci : Bool} {c c' : Byte}

theorem slotsOf_letter (h : isLetter c = true) : slotsOf true c = [c &&& 0xDF#8, c ||| 0x20#8] := by
  rw [slotsOf, Bool.true_and, if_pos h]

theorem slotsOf_other (h : (ci && isLetter c) = false) : slotsOf ci c = [c] := by
  rw [slotsOf, h]
  rfl

theorem mem_slotsOf_self (ci : Bool) (c : Byte) : c ∈ slotsOf ci c := by
  cases h : ci && isLetter c with
  | false =>
    rw [slotsOf_other h]
    exact List.mem_singleton_self c
  | true =>
    obtain ⟨rfl, hletter⟩ := Bool.and_eq_true_iff.mp h
    rw [slotsOf_letter hletter, List.mem_pair]
    exact (bothCases_spec c).1

/-- Each slot of a byte has the same slots. -/
theorem slotsOf_eq_of_mem (h : c' ∈ slotsOf ci c) : slotsOf ci c' = slotsOf ci c := by
  cases hcase : ci && isLetter c with
  | false =>
    rw [slotsOf_other hcase, List.mem_singleton] at h
    rw [h]
  | true =>
    obtain ⟨rfl, hletter⟩ := Bool.and_eq_true_iff.mp hcase
    obtain ⟨hupper, hlower⟩ := isLetter_cases c
    obtain ⟨-, huu, hul, hlu, hll⟩ := bothCases_spec c
    rw [slotsOf_letter hletter, List.mem_pair] at h
    rw [slotsOf_letter hletter]
    rcases h with rfl | rfl
    · rw [slotsOf_letter (hupper.trans hletter), huu, hul]
    · rw [slotsOf_letter (hlower.trans hletter), hlu, hll]

theorem mem_slotsOf_iff : c' ∈ slotsOf ci c ↔ slotsOf ci c' = slotsOf ci c :=
  ⟨slotsOf_eq_of_mem, fun h => h ▸ mem_slotsOf_self ci c'⟩

section
variable {alphabet : List Byte} {table : LookupScratch} (hbuild : buildLookup ci alphabet = some table)
include hbuild

/-- The table does not tell apart bytes with the same slots. -/
theorem buildLookup_entry_congr (h : c' ∈ slotsOf ci c) :
    entry table.table c'.toNat 0xFF#8 = entry table.table c.toNat 0xFF#8 := by
  rw [mem_slotsOf_iff] at h
  by_cases hc : c ∈ alphabet.flatMap (slotsOf ci)
  · obtain ⟨a, ha, hca⟩ := List.mem_flatMap.mp hc
    obtain ⟨i, hi, rfl⟩ := List.mem_iff_getElem.mp ha
    rw [← List.getD_eq_getElem alphabet 0 hi] at hca
    have hca' : c' ∈ slotsOf ci (alphabet.getD i 0) := mem_slotsOf_iff.mpr (h.trans (mem_slotsOf_iff.mp hca))
    rw [buildLookup_entry_of_slot hbuild hi hca, buildLookup_entry_of_slot hbuild hi hca']
  · have hc' : c' ∉ alphabet.flatMap (slotsOf ci) := by
      simpa only [List.mem_flatMap, mem_slotsOf_iff, h] using hc
    rw [buildLookup_entry_of_free hbuild hc, buildLookup_entry_of_free hbuild hc']

/-! ### Decoding symbols -/

variable {b : Nat}

theorem decodedBits_congr {l l' : List Byte} (h : List.Forall₂ (fun c c' => c' ∈ slotsOf ci c) l l') :
    decodedBits b table.table.toList l' = decodedBits b table.table.toList l := by
  rw [decodedBits_eq_flatMap, decodedBits_eq_flatMap]
  induction h with
  | nil => rfl
  | cons hc _ ih => rw [List.flatMap_cons, List.flatMap_cons, ih, decodedByte, decodedByte, buildLookup_entry_congr hbuild hc]

/-- A byte that claims no slot of the alphabet is skipped (R233). -/
theorem decodedByte_of_free (h7 : b ≤ 7) (hc : c ∉ alphabet.flatMap (slotsOf ci)) : decodedByte b table.table c = [] := by
  rw [decodedByte, buildLookup_entry_of_free hbuild hc]
  exact if_pos ((alphabetSize_le h7).trans (by decide))

/-- A symbol is decoded to the bits of its number. -/
theorem decodedByte_symbol (h7 : b ≤ 7) (hl : alphabet.length = 2 ^ b) {i : Nat} (hi : i < 2 ^ b) :
    decodedByte b table.table (alphabet.getD i 0) = topBits b b (BitVec.ofNat 8 i) := by
  have hsize := alphabetSize_le h7
  rw [decodedByte, buildLookup_entry_of_slot hbuild (hi.trans_eq hl.symm) (mem_slotsOf_self ci _), BitVec.toNat_ofNat,
    Nat.mod_eq_of_lt (by omega)]
  exact if_neg (Nat.not_le.mpr hi)

/-- The symbols of a string of bits are decoded to its groups, the last one filled with zeros. -/
theorem decodedBits_symbolsOfBits (h7 : b ≤ 7) (hl : alphabet.length = 2 ^ b) (l : List Bool) :
    decodedBits b table.table.toList (symbolsOfBits b alphabet l) = (cut b l.length l).flatMap (filledGroup b) := by
  rw [decodedBits_eq_flatMap, symbolsOfBits, List.flatMap_map]
  refine List.flatMap_congr fun g hg => ?_
  have hlen := filledGroup_length (length_le_of_mem_cut hg)
  have hlt := bitsValue_lt (filledGroup b g)
  have hbits := topBits_bitsValue (g := filledGroup b g) (by omega)
  rw [hlen] at hlt hbits
  rw [groupValue_eq_bitsValue, decodedByte_symbol hbuild h7 hl hlt, hbits]

/-- Padding that claims no slot of the alphabet is skipped. -/
theorem decodedBits_padded (h7 : b ≤ 7) {pad : Byte} (hpad : pad ∉ alphabet.flatMap (slotsOf ci)) (padOn : Bool) (obs : Nat)
    (l : List Byte) : decodedBits b table.table.toList (padded padOn pad obs l) = decodedBits b table.table.toList l := by
  cases padOn with
  | false => rfl
  | true =>
    rw [padded, if_pos rfl, decodedBits_eq_flatMap, decodedBits_eq_flatMap, List.flatMap_append]
    refine (congrArg _ (List.flatMap_eq_nil_iff.mpr fun c hc => ?_)).trans (List.append_nil _)
    rw [List.eq_of_mem_replicate hc]
    exact decodedByte_of_free hbuild h7 hpad

/-- Decoding the symbols of a message, padded or not, gives the message (R236). -/
theorem wholeBytes_decodedBits_encoded (h1 : 1 ≤ b) (h7 : b ≤ 7) (hl : alphabet.length = 2 ^ b) {pad : Byte}
    (hpad : pad ∉ alphabet.flatMap (slotsOf ci)) (padOn : Bool) (obs : Nat) (l : List Byte) :
    wholeBytes (decodedBits b table.table.toList (padded padOn pad obs (symbolsOf b alphabet l))) = l := by
  obtain ⟨z, hz, hcut⟩ := cut_flatMap_filledGroup h1 (Nat.le_refl (bitsOf l).length)
  rw [decodedBits_padded hbuild h7 hpad, symbolsOf, decodedBits_symbolsOfBits hbuild h7 hl, hcut]
  exact wholeBytes_bitsOf_append l (by rw [List.length_replicate]; omega)

end

end

end Sys2Proof.Machine
end

section
/-! PROOF. The statements of spec/46_basen_decoder.md. -/

namespace Sys2Proof.Proofs

open Sys2Proof.Machine Sys2Proof.Statements

/-- Settles O44: no slot is claimed twice, so that the table is built, and it holds what the symbols claim. -/
theorem buildLookupWritesTable : Obligations.BuildLookupWritesTable := by
  intro ci s hs hwf hlen h0 h2 alphabet hnodup
  obtain ⟨l, hbuild⟩ := exists_buildLookup_iff.mpr hnodup
  have hcount := l.slotCount_le
  refine ⟨_, exec_bdecBuildLookup hlen h0 h2 hbuild, ?frame, ?result, ?claimed, ?free, ?outside⟩
  case frame => rw [← finish_eq_endedOk hs]; rfl
  case result =>
    rw [State.finish_result, BitVec.toNat_ofNat, Nat.mod_eq_of_lt (by omega), buildLookup_slotCount hbuild]
  case claimed =>
    intro v q hv hq
    rw [State.finish_mem, State.setMem_mem, Memory.read_writeN_table hwf, buildLookup_entry_of_slot hbuild hv hq]
  case free =>
    intro q hq
    rw [State.finish_mem, State.setMem_mem, Memory.read_writeN_table hwf, buildLookup_entry_of_free hbuild hq]
  case outside =>
    intro a ha
    rw [State.finish_mem, State.setMem_mem, Memory.read_writeN_outside]
    rw [Vector.length_toList]
    omega

/-- Settles O45: the checks pass, and the decoder named by `INST` is the configured one. -/
theorem bdecInitConfiguresDecoder : Obligations.BdecInitConfiguresDecoder := by
  intro n b s hn hs hb hfits
  have h7 : b.toNat ≤ 7 := Nat.le_of_lt_succ b.isLt
  obtain ⟨-, -, -, -, hobs⟩ := blockSizes b.toNat hb h7
  refine ⟨_, exec_bdecInit hb hfits, ?frame, ?result, ?decoder⟩
  case frame => rw [← finish_eq_endedOk hs]; rfl
  case result => rw [State.finish_result, BitVec.toNat_ofNat, Nat.mod_eq_of_lt (by omega)]
  case decoder =>
    simp only [State.finish_decoder, State.decoder_setDecoder _ _ _ hn]
    exact ⟨rfl, rfl, rfl, fun j hj => entry_configuredDecoder_lookup b.toNat s.mem s.addr0 hj, rfl, rfl, rfl, rfl, rfl, rfl, rfl,
      fun m hm => State.decoder_setDecoder_other _ hm⟩

/-- Settles O47: the symbols' bits are decoded group by group as they come in, which leaves the decoder at reset, as it was
when it was configured. -/
theorem decoderDecodesWholeMessages : Obligations.DecoderDecodesWholeMessages := by
  intro n k m s b lookup hn hs hpos hfits hmel h1 h7 hl hconf htakes
  have hlegal : (s.decoder n).Legal := by rw [hconf]; exact ⟨configuredDecoder_inv b lookup h1 h7, rfl⟩
  have hidle : (s.decoder n).fsm = .idle := by rw [hconf]; rfl
  have hgo := s.decoderRun_go (k := k) (m := m) hlegal.1 hlegal.2 htakes
  obtain ⟨es, hhistory, hideal⟩ := s.decoderRun_ideal hpos hgo
  obtain ⟨-, hresidual⟩ := s.decoderRun_end hpos hgo
  obtain ⟨t, hexec, hframe, hresult, hunit, hport⟩ := exec_bdecPut (k := k) (m := m) hn hs hlegal.2 hfits (by rw [hgo]; nofun)
  rw [hconf, configuredDecoder_ideal h1 h7 hl hmel, ← hconf] at hideal
  obtain ⟨hsame, hstream⟩ := Prod.mk.inj hideal
  refine ⟨t, hexec, ?status, ?result, hunit.trans hsame.symm, ?stream⟩
  case status => rw [hframe, hgo]; rfl
  case result =>
    rw [hresidual, hidle] at hresult
    exact BitVec.eq_of_toNat_eq hresult
  case stream => rw [hport, hhistory, streamOf_append, ← hstream, ← List.append_assoc]

/-- Settles O48: the text gives the bits that the encoder's output gives, and these are the message's bits and fewer than eight
zeros. -/
theorem decodingUndoesEncoding : Obligations.DecodingUndoesEncoding := by
  intro ci b alphabet l text padOn pad table h1 h7 hl hbuild hpad htext
  rw [outputBytes_encoder h1 h7 hl] at htext
  rw [outputBytes_decoder h1 h7 (Vector.length_toList ..), decodedBits_congr hbuild htext]
  exact wholeBytes_decodedBits_encoded hbuild h1 h7 hl hpad padOn (encoderBlockSize b) l

end Sys2Proof.Proofs
end

section
/-! SUPPORT. `GRP_INIT` (spec/47_grouper.md R250): what it does once its checks pass, and the strings it copies. -/

namespace Sys2Proof.Machine

open Sys2Proof.Statements

section
variable {s : State} {n : BitVec 4} {p q : Bool}

theorem State.grouper_setGrouper_other (g : Grouper) {m : BitVec 4} (h : m ≠ n) : (s.setGrouper n g).grouper m = s.grouper m :=
  entry_setEntry_otherInstance _ _ _ h

/-- A string parameter of `GRP_INIT` as the instance gets it: empty when it is not given. -/
def optionalString (given : Bool) (m : Memory) (a len : Nat) : List Byte := if given then m.readN a len else []

theorem optionalString_length (given : Bool) (m : Memory) (a len : Nat) :
    (optionalString given m a len).length = if given then len else 0 := by
  cases given
  · rfl
  · exact m.readN_length a len

/-- The bytes of such a string in its buffer: those of memory, and zeros past them. -/
theorem entry_fillBuffer_optionalString {k : Nat} (given : Bool) (m : Memory) (a len j : Nat) (h : given = true → len ≤ k) :
    entry (fillBuffer k (optionalString given m a len) 0) j 0 = if given ∧ j < len then m.read (a + j) else 0 := by
  have hlen := optionalString_length given m a len
  rw [entry_fillBuffer _ _ _ (by rw [hlen]; split <;> simp_all)]
  by_cases hj : given = true ∧ j < len
  · rw [if_pos hj, optionalString, if_pos hj.1, m.readN_getD a len j 0 hj.2]
  · rw [if_neg hj]
    refine List.getD_eq_default _ _ ?_
    rw [hlen]
    split
    · exact Nat.not_lt.mp fun hlt => hj ⟨‹_›, hlt⟩
    · exact Nat.zero_le j

theorem exec_grpInit (hsep : 0 < s.param5.toNat → p = true) (hp : p = true → s.len3 ≤ 255 ∧ Fits s.addr0 s.len3)
    (hq : q = true → s.len4 ≤ 255 ∧ Fits s.addr1 s.len4) :
    exec (.grpInit n p q) s = .next ((s.setGrouper n (configuredGrouper s.param5 (optionalString p s.mem s.addr0 s.len3)
      (optionalString q s.mem s.addr1 s.len4))).finish 0) := by
  refine State.guarded_of_pass (cs := grpInitChecks p q s) fun c hc => ?_
  rw [grpInitChecks, List.append_assoc, List.mem_append, List.mem_append] at hc
  rcases hc with hc | hc | hc
  · exact grpInitFlagChecks_pass hsep (fun h => (hp h).1) (fun h => (hq h).1) c hc
  · exact optionalRangeCheck_passes (fun h => (hp h).2) c hc
  · exact optionalRangeCheck_passes (fun h => (hq h).2) c hc

end

end Sys2Proof.Machine
end

section
/-! SUPPORT. Messages put into a Grouper whole (spec/47_grouper.md R251 to R255): group by group, the separator comes out
before the byte that begins the next. -/

namespace Sys2Proof.Machine

open Sys2Proof.Statements

/-! ### Groups of bytes -/

section
variable {size : Nat} {sep l : List Byte}

/-- A message that fits in one group has no separator. -/
theorem grouped_of_length_le (h : l.length ≤ size) : grouped size sep l = l := by
  unfold grouped
  split
  · rfl
  · cases l with
    | nil => rfl
    | cons v l =>
      rw [List.length_cons, cut, if_neg (by simp), List.take_of_length_le h, List.drop_of_length_le h, cut_nil,
        List.intercalate_singleton]

/-- A message that does not is its first group, the separator, and the rest in groups. -/
theorem grouped_append {first : List Byte} (hpos : 0 < size) (hfirst : first.length = size) (hl : l ≠ []) :
    grouped size sep (first ++ l) = first ++ sep ++ grouped size sep l := by
  have hrest : cut size l.length l ≠ [] := by
    obtain ⟨v, l, rfl⟩ := List.exists_cons_of_ne_nil hl
    simp [cut]
  rw [grouped, if_neg hpos.ne', grouped, if_neg hpos.ne', cut_append_piece hpos hfirst, List.intercalate_cons_of_ne_nil hrest]

end

/-! ### The Grouper -/

/-- A Grouper with nothing forwarded and nothing pending, as `complete` leaves it (R251). -/
def Grouper.AtStart (g : Grouper) : Prop := g.complete = g

section
variable {g : Grouper}

theorem Grouper.Inv.atStart (h : g.Inv) (hi : g.fsm = .idle) (hc : g.counter = 0) : g.AtStart := by
  obtain ⟨hoff, hmel⟩ := h.idlePending hi
  cases g
  simp_all [Grouper.AtStart, Grouper.complete]

theorem Grouper.AtStart.idle (h : g.AtStart) : g.fsm = .idle := h ▸ rfl

theorem Grouper.AtStart.counter (h : g.AtStart) : g.counter = 0 := h ▸ rfl

/-- Whatever has been forwarded, completing an emission brings the Grouper back to the start. -/
theorem Grouper.AtStart.complete_count (h : g.AtStart) (k : Nat) : (g.count k).complete = g := by
  rw [Grouper.count_eq]
  exact h

/-- What a separator brings out, and what it leaves (R253). -/
theorem Grouper.AtStart.separator (h : g.AtStart) (k : Nat) :
    grouperUnit.settled (g.count k).openSeparator = g ∧
      grouperUnit.owes (g.count k).openSeparator = (g.sep.toList.take g.sepLen).map .byte := by
  have hpending : grouperUnit.idle (g.count k).openSeparator = false := rfl
  refine ⟨(grouperUnit.settled_of_pending hpending).trans (h.complete_count k), ?_⟩
  rw [grouperUnit.owes_of_pending hpending, Grouper.count_eq]
  exact List.append_nil _

/-- Bytes that fit in the first group come out as they are. -/
theorem Grouper.AtStart.digest_of_room (h : g.AtStart) {l : List Byte} (hroom : g.HasRoom l.length) :
    digest grouperFeed g l = (g.count l.length, l.map .byte) := by
  have hdigest := Machine.digest_of_room l [] h.idle hroom
  rw [List.append_nil] at hdigest
  rw [hdigest, digest, prepend, List.append_nil]

/-- A whole first group comes out with the separator when more bytes follow it, and leaves the Grouper at the start. -/
theorem Grouper.AtStart.digest_append (h : g.AtStart) {first l : List Byte} (hpos : 0 < g.groupSize.toNat)
    (hfirst : first.length = g.groupSize.toNat) (hl : l ≠ []) :
    digest grouperFeed g (first ++ l) =
      prepend ((first ++ g.sep.toList.take g.sepLen).map .byte) (digest grouperFeed g l) := by
  have hfull : (g.count g.groupSize.toNat).counter = (g.count g.groupSize.toNat).groupSize.toNat := by
    rw [Grouper.count_counter, if_pos hpos, h.counter, Grouper.count_groupSize, Nat.zero_add]
  have hroom : g.HasRoom first.length := fun _ => by rw [h.counter, hfirst, Nat.zero_add]
  obtain ⟨hsettled, howes⟩ := h.separator g.groupSize.toNat
  obtain ⟨v, l, rfl⟩ := List.exists_cons_of_ne_nil hl
  rw [Machine.digest_of_room _ _ h.idle hroom, hfirst, digest_of_full (by rwa [Grouper.count_groupSize]) hfull, hsettled, howes,
    prepend_prepend, List.map_append]

/-- A Grouper at the start of a message that is fed with `l` gives the groups of `l`, and has counted bytes. -/
theorem Grouper.AtStart.digest_eq (h : g.AtStart) (l : List Byte) :
    ∃ k, digest grouperFeed g l =
      (g.count k, (grouped g.groupSize.toNat (g.sep.toList.take g.sepLen) l).map .byte) := by
  by_cases hpos : 0 < g.groupSize.toNat
  · induction hlen : l.length using Nat.strong_induction_on generalizing l with
    | _ len ih =>
      by_cases hle : l.length ≤ g.groupSize.toNat
      · rw [grouped_of_length_le hle]
        exact ⟨l.length, h.digest_of_room fun _ => by rw [h.counter]; omega⟩
      · obtain ⟨first, rest, rfl, hfirst⟩ : ∃ first rest, l = first ++ rest ∧ first.length = g.groupSize.toNat :=
          ⟨_, _, (List.take_append_drop g.groupSize.toNat l).symm, by rw [List.length_take]; omega⟩
        rw [List.length_append] at hle hlen
        have hne : rest ≠ [] := fun he => by rw [he, List.length_nil] at hle; omega
        obtain ⟨k, hk⟩ := ih rest.length (by omega) rest rfl
        rw [h.digest_append hpos hfirst hne, grouped_append hpos hfirst hne, hk, prepend]
        exact ⟨k, congrArg _ List.map_append.symm⟩
  · rw [grouped, if_pos (by omega)]
    exact ⟨l.length, h.digest_of_room fun hsize => absurd hsize hpos⟩

/-- A message put whole into a Grouper at its start (R255). -/
theorem Grouper.AtStart.ideal_eq (h : g.AtStart) {mel : Nat} (hmel : 1 ≤ mel) (l : List Byte) :
    grouperUnit.ideal grouperFeed mel g l =
      (g, (grouped g.groupSize.toNat (g.sep.toList.take g.sepLen) l).map .byte
        ++ ((g.term.toList.take g.termLen).map .byte ++ endItem mel)) := by
  have hidle : grouperUnit.idle g = true := (grouperUnit_idle_iff g).mpr h.idle
  obtain ⟨k, hdigest⟩ := h.digest_eq l
  have hterm : grouperUnit.pending (grouperUnit.beginEnd (g.count k) mel) = g.term.toList.take g.termLen := by
    rw [Grouper.count_eq]
    rfl
  rw [grouperUnit.ideal_of_not_endPending (grouperUnit.not_endPending_of_idle hidle), grouperUnit.resume_of_idle hidle, hdigest,
    grouperUnit_lawful.ending_eq hmel rfl rfl, hterm]
  exact congrArg (·, _) (h.complete_count k)

end

/-- A `GRP_PUT` that goes through adds to its port, and leaves as its Grouper, what its message makes of them. -/
theorem State.grouperRun_ideal {s : State} {n : BitVec 4} {k : Bool} {m : Byte} (h : (s.grouper n).Inv) (hpos : s.latch.pos = 0)
    (hgo : (s.grouperRun n k m).1 = .go) :
    ∃ es, (s.grouperRun n k m).2.port.history = (s.portG n).history ++ es ∧
      grouperUnit.ideal grouperFeed m.toNat (s.grouper n) (s.mem.readN s.addr0 s.len3) =
        ((s.grouperRun n k m).2.unit, streamOf es) := by
  obtain ⟨-, -, es, hhistory, hideal⟩ := grouperUnit_streams.run_go (j := s.putJob .grouper n k m)
    (r := ⟨s.grouper n, s.portG n, s.latch.pos⟩) h.counterLe (by simp [hpos]) hgo
  rw [PutJob.rest_eq_drop, hpos, List.drop_zero] at hideal
  exact ⟨es, hhistory, by rw [State.grouperRun, hpos]; exact hideal⟩

end Sys2Proof.Machine
end

section
/-! PROOF. The statements of spec/47_grouper.md on `GRP_INIT` and on whole messages. -/

namespace Sys2Proof.Proofs

open Sys2Proof.Machine Sys2Proof.Statements

/-- Settles O49: the checks pass, and the Grouper named by `INST` is the configured one. -/
theorem grpInitConfiguresGrouper : Obligations.GrpInitConfiguresGrouper := by
  intro n p q s hn hs hsep hp hq
  refine ⟨_, exec_grpInit hsep hp hq, ?frame, ?grouper⟩
  case frame => rw [← finish_eq_endedOk hs]; rfl
  case grouper =>
    simp only [State.finish_grouper, State.grouper_setGrouper _ _ _ hn]
    exact ⟨rfl, rfl, optionalString_length p _ _ _, optionalString_length q _ _ _,
      fun j => entry_fillBuffer_optionalString p _ _ _ j fun h => (hp h).1,
      fun j => entry_fillBuffer_optionalString q _ _ _ j fun h => (hq h).1,
      rfl, rfl, rfl, rfl, fun m hm => State.grouper_setGrouper_other _ hm⟩

/-- Settles O51: the message comes out group by group as it comes in, and its end brings the Grouper back to the start. -/
theorem grouperSeparatesGroups : Obligations.GrouperSeparatesGroups := by
  intro n k m s hn hs hpos hv hinv hidle hcounter hfits hmel htakes
  have hgo := s.grouperRun_go (k := k) (m := m) hinv htakes
  obtain ⟨es, hhistory, hideal⟩ := s.grouperRun_ideal hinv hpos hgo
  obtain ⟨-, hresidual⟩ := s.grouperRun_end hinv hpos hgo
  obtain ⟨t, hexec, hframe, hresult, hunit, hport⟩ := exec_grpPut (k := k) (m := m) hn hs hv hfits (by rw [hgo]; nofun)
  rw [(hinv.atStart hidle hcounter).ideal_eq hmel] at hideal
  obtain ⟨hsame, hstream⟩ := Prod.mk.inj hideal
  refine ⟨t, hexec, ?status, ?result, hunit.trans hsame.symm, ?stream⟩
  case status => rw [hframe, hgo]; rfl
  case result =>
    rw [hresidual, hidle] at hresult
    exact BitVec.eq_of_toNat_eq hresult
  case stream => rw [hport, hhistory, streamOf_append, ← hstream, ← List.append_assoc, ← List.append_assoc]

end Sys2Proof.Proofs
end

section
/-! SUPPORT. The checks of every command as one list (spec/60_exceptions.md R272 to R274): each command is guarded by its
checks, each check raises an error that is listed for its command, and what follows the checks raises none. -/

namespace Sys2Proof.Machine

open Sys2Proof.Statements

/-! ### The first check that fails -/

section
variable {s effect : State} {cs : List Check} {fails : Bool} {code : ErrorCode} {arg : ArgIndex}

/-- A check that fails after checks that pass is the one that is raised (R273). -/
theorem State.guarded_of_firstFailing (before after : List Check) (hcs : cs = before ++ ⟨fails, code, arg⟩ :: after)
    (hbefore : ∀ c ∈ before, c.fails = false) (hfails : fails = true) :
    s.guarded cs effect = .next (s.raise code arg) := by
  refine State.guarded_of_failure ?_
  rw [hcs, firstFailure_append_of_pass hbefore, firstFailure, if_pos hfails]

theorem State.guarded_of_headFails (h : fails = true) :
    s.guarded (⟨fails, code, arg⟩ :: cs) effect = .next (s.raise code arg) :=
  State.guarded_of_firstFailing [] cs rfl nofun h

/-- A command on a context or an instance that is not valid, whatever its other checks are (R273 step 5). -/
theorem State.guarded_notReady {valid : Bool} (h : valid = false) :
    s.guarded (⟨!valid, .notReady, .inst⟩ :: cs) effect = .next (s.raise .notReady .inst) :=
  State.guarded_of_headFails (by rw [h]; rfl)

/-- The checks that both INIT commands of the BaseN units begin with: the parameter is given, and `BPC` is not 0 (R211,
R231). -/
theorem State.guarded_baseNInit {given : Bool} {b : BitVec 3} (h : given = false ∨ b = 0) :
    s.guarded (⟨!given, .invalidArgument, .flags⟩ ::
      ⟨decide (bitsPerChar b < 1 ∨ 7 < bitsPerChar b), .invalidArgument, .flags⟩ :: cs) effect =
        .next (s.raise .invalidArgument .flags) := by
  cases given with
  | false => exact State.guarded_of_headFails rfl
  | true =>
    obtain rfl := h.resolve_left nofun
    exact State.guarded_of_firstFailing [⟨!true, .invalidArgument, .flags⟩] cs rfl (by simp) rfl

end

/-- A table that cannot be built is one with a slot claimed twice (R230). -/
theorem buildLookup_isNone {ci : Bool} {symbols : List Byte} (h : ¬(symbols.flatMap (slotsOf ci)).Nodup) :
    (buildLookup ci symbols).isNone = true := by
  rw [Option.isNone_iff_eq_none, Option.eq_none_iff_forall_ne_some]
  exact fun l hl => h (exists_buildLookup_iff.mp ⟨l, hl⟩)

/-! ### The checks of every command -/

/-- The checks of a command, in the order of R273. -/
def commandChecks (i : Instr) (s : State) : List Check :=
  match i with
  | .aesSetKey _ _ => setKeyChecks s
  | .aesProcessBlock n x => processBlockChecks n x s
  | .aesProcessBlocks n x y d c => bulkChecks n ⟨x, y, d, c⟩ s
  | .aesReadRk n => readRkChecks n s
  | .aesClearKey _ => []
  | .bencInit _ b a _ _ _ => bencInitChecks b a s
  | .bencPut n _ _ => putChecks encoderUnit (s.encoder n) s
  | .bdecBuildLookup c => buildLookupChecks c s
  | .bdecInit _ b l => bdecInitChecks b l s
  | .bdecPut n _ _ => putChecks decoderUnit (s.decoder n) s
  | .grpInit _ p q => grpInitChecks p q s
  | .grpPut n _ _ => putChecks grouperUnit (s.grouper n) s

/-- No end of a put reports an error. -/
theorem State.endPut_err (s : State) (f : Flow) (pos events : Nat) : (s.endPut f pos events).status.err = s.status.err := by
  cases f <;> rfl

/-- Every command is guarded by its checks, and reports no error once they pass. -/
theorem exec_eq_guarded (i : Instr) (s : State) :
    ∃ effect : State, exec i s = s.guarded (commandChecks i s) effect ∧ effect.status.err = s.status.err := by
  cases i with
  | aesProcessBlocks n x y d c =>
    refine ⟨_, rfl, ?_⟩
    rw [bulkLoop_frame]
    rfl
  | bencPut | bdecPut | grpPut => exact ⟨_, rfl, State.endPut_err _ _ _ _⟩
  | aesSetKey | aesProcessBlock | aesReadRk | aesClearKey | bencInit | bdecBuildLookup | bdecInit | grpInit =>
    exact ⟨_, rfl, rfl⟩

/-- What its checks make of a command whatever its effect is, the command does. -/
theorem exec_of_guarded {i : Instr} {s t : State} (h : ∀ effect, s.guarded (commandChecks i s) effect = .next t) :
    exec i s = .next t := by
  obtain ⟨effect, heq, -⟩ := exec_eq_guarded i s
  exact heq.trans (h effect)

/-- Every check raises an error that R274 lists for its command. -/
theorem commandChecks_listed {i : Instr} {s : State} {c : Check} (h : c ∈ commandChecks i s) :
    (c.code, c.arg) ∈ commandErrors i := by
  suffices hall : ∀ c ∈ commandChecks i s, (c.code, c.arg) ∈ commandErrors i from hall c h
  cases i with
  | aesProcessBlock n x => cases x <;> simp [commandChecks, processBlockChecks, commandErrors]
  | aesProcessBlocks n x y d c =>
    by_cases hblock : 0 < s.blockCount <;> cases x <;> simp [commandChecks, bulkChecks, commandErrors, hblock]
  | grpInit n p q => cases p <;> cases q <;> simp [commandChecks, grpInitChecks, commandErrors]
  | aesSetKey => simp [commandChecks, setKeyChecks, commandErrors]
  | aesReadRk => simp [commandChecks, readRkChecks, commandErrors]
  | aesClearKey => simp [commandChecks]
  | bencInit => simp [commandChecks, bencInitChecks, commandErrors]
  | bdecBuildLookup => simp [commandChecks, buildLookupChecks, commandErrors]
  | bdecInit => simp [commandChecks, bdecInitChecks, commandErrors]
  | bencPut | bdecPut | grpPut => simp [commandChecks, putChecks, commandErrors]

/-- A command that ends with an error has raised one listed for it. -/
theorem exec_raises_listed {i : Instr} {s t : State} (hok : s.status.err = .ok) (h : exec i s = .next t)
    (herr : t.status.err ≠ .ok) : ∃ code arg, t = s.raise code arg ∧ (code, arg) ∈ commandErrors i := by
  obtain ⟨effect, heq, heffect⟩ := exec_eq_guarded i s
  rw [heq] at h
  obtain ⟨c, hc, -, -, rfl⟩ | ⟨-, rfl⟩ := State.guarded_cases h
  · exact ⟨c.code, c.arg, rfl, commandChecks_listed hc⟩
  · exact absurd (heffect.trans hok) herr

end Sys2Proof.Machine
end

section
/-! SUPPORT. How a command leaves the engine (spec/60_exceptions.md R272, R275, spec/44_filter_interface.md R193): it has ended, or
it is a blocking put that waits, which has then made an offer (log 5) and recorded it (log 9). -/

namespace Sys2Proof.Machine

open Sys2Proof.Statements

/-! ### Waiting -/

section
variable {U : Type} {u : PutUnit U} {body : PutJob → PutRun U → Flow × PutRun U} {j : PutJob} {r : PutRun U}

/-- A part of a put that started with history `h` waits only when the put is blocking, and only after an offer. -/
def WaitsAfterOffer (j : PutJob) (h : List Event) (res : Flow × PutRun U) : Prop :=
  res.1 = .wait → j.blocking = true ∧ h.length < res.2.port.history.length

theorem WaitsAfterOffer.of_prefix {h h' : List Event} {res : Flow × PutRun U} (hw : WaitsAfterOffer j h' res) (hp : h <+: h') :
    WaitsAfterOffer j h res := fun hwait =>
  have ⟨hblocking, hlt⟩ := hw hwait
  ⟨hblocking, hp.length_le.trans_lt hlt⟩

theorem emitLoop_waits {d : List Byte} {lvl : Nat} {blocking : Bool} {sink : Nat → Nat} {drawn : Nat} {ts : List Nat}
    {h : List Event} {off : Nat} (hwait : (emitLoop d lvl blocking sink drawn ts h off).1 = .wait) :
    blocking = true ∧ h.length < (emitLoop d lvl blocking sink drawn ts h off).2.1.history.length := by
  induction ts generalizing h off with
  | nil =>
    rw [emitLoop] at hwait ⊢
    split at hwait
    · cases hwait
    · rw [if_neg ‹_›]
      exact ⟨(unfinished_eq_wait blocking).mp hwait, by simp⟩
  | cons t ts ih =>
    rw [emitLoop] at hwait ⊢
    split at hwait
    · cases hwait
    · rw [if_neg ‹_›]
      split at hwait
      · obtain ⟨hblocking, hlt⟩ := ih hwait
        rw [if_pos hblocking]
        rw [List.length_append] at hlt
        exact ⟨hblocking, (Nat.le_add_right _ _).trans_lt hlt⟩
      · cases hwait

theorem PutUnit.flush_waits (u : PutUnit U) (j : PutJob) (r : PutRun U) : WaitsAfterOffer j r.port.history (u.flush j r) := by
  rw [u.flush_spec]
  exact emitLoop_waits

theorem forwardLoop_waits {drawn : Nat} {ts : List Nat} {h : List Event} {left : Nat} {g : Grouper} {pos : Nat} :
    WaitsAfterOffer j h (forwardLoop j drawn ts h left g pos) := by
  induction ts generalizing h left g pos with
  | nil =>
    rw [forwardLoop]
    split
    · nofun
    · exact fun hwait => ⟨(unfinished_eq_wait _).mp hwait, by simp⟩
  | cons t ts ih =>
    rw [forwardLoop]
    split
    · nofun
    · split
      · exact ih.of_prefix (List.prefix_append _ _)
      · nofun

/-- A codec's loop waits only where it flushes. -/
theorem PutUnit.Eats.loop_waits {loop : PutJob → Nat → PutRun U → Flow × PutRun U} {eat : U → Byte → U}
    (he : u.Eats loop eat) (count : Nat) (hi : u.idle r.unit = true) : WaitsAfterOffer j r.port.history (loop j count r) := by
  refine he.induct (j := j) (M := fun _ r res => WaitsAfterOffer j r.port.history res) (fun r _ => ?zero)
    (fun _ r res _ _ ih => ?room) (fun _ r r' res _ _ hres _ ih => ?flushed) (fun _ r f r' _ _ hres _ => ?unflushed) count r hi
  case zero => nofun
  case room => exact ih
  case flushed =>
    have hgrows := u.flush_history (h := r.port.history) j (eatNext eat j r) List.prefix_rfl
    rw [hres] at hgrows
    exact ih.of_prefix hgrows
  case unflushed => exact hres ▸ u.flush_waits j (eatNext eat j r)

/-- A put waits only where its body or an emission does. -/
theorem PutUnit.run_waits (hbody : ∀ r, u.idle r.unit = true → WaitsAfterOffer j r.port.history (body j r))
    (hgrows : ∀ r, r.port.history <+: (body j r).2.port.history) (hlawful : u.Lawful) (r : PutRun U) :
    WaitsAfterOffer j r.port.history (u.run body j r) := by
  have hend (r : PutRun U) : WaitsAfterOffer j r.port.history (u.messageEnd j r) := by
    unfold PutUnit.messageEnd
    split
    · exact u.flush_waits j { r with unit := u.beginEnd r.unit j.mel }
    · nofun
  have hprocess (r : PutRun U) (hi : u.idle r.unit = true) : WaitsAfterOffer j r.port.history (u.process body j r) := by
    have hwaits := hbody r hi
    have hprefix := hgrows r
    unfold PutUnit.process
    rcases hres : body j r with ⟨f, r'⟩
    rw [hres] at hwaits hprefix
    cases f with
    | go => exact (hend r').of_prefix hprefix
    | stall => nofun
    | wait => exact hwaits
  cases hi : u.idle r.unit with
  | true =>
    rw [PutUnit.run, if_pos hi]
    exact hprocess r hi
  | false =>
    have hwaits := u.flush_waits j r
    have hprefix := u.flush_history j r List.prefix_rfl
    obtain ⟨-, -, hunit, -⟩ := hlawful.flush j hi
    simp only [PutUnit.run, hi, Bool.false_eq_true, if_false]
    rcases hres : u.flush j r with ⟨f, r'⟩
    rw [hres] at hwaits hprefix hunit
    cases f with
    | go =>
      have hidle : u.idle r'.unit = true := hunit rfl ▸ hlawful.idle_settled _
      cases u.endsMessage r.unit with
      | true => nofun
      | false => exact (hprocess r' hidle).of_prefix hprefix
    | stall => nofun
    | wait => exact hwaits

end

section
variable {j : PutJob} {r : PutRun Grouper}

theorem separate_waits : WaitsAfterOffer j r.port.history (separate j r) := by
  unfold separate
  split
  · exact grouperUnit.flush_waits j { r with unit := r.unit.openSeparator }
  · nofun

theorem separate_history : r.port.history <+: (separate j r).2.port.history := by
  unfold separate
  split
  · exact grouperUnit.flush_history j { r with unit := r.unit.openSeparator } List.prefix_rfl
  · exact List.prefix_rfl

theorem groupLoop_waits (fuel : Nat) : WaitsAfterOffer j r.port.history (groupLoop j fuel r) := by
  induction fuel generalizing r with
  | zero => nofun
  | succ fuel ih =>
    by_cases hlt : r.pos < j.n
    · have hwaits := separate_waits (j := j) (r := r)
      have hprefix := separate_history (j := j) (r := r)
      rcases hs : separate j r with ⟨f, r'⟩
      rw [hs] at hwaits hprefix
      by_cases hf : f = .go
      · subst hf
        have hwaits' : WaitsAfterOffer j r'.port.history (forwardData j (chunkLength j r') r') := forwardLoop_waits
        have hprefix' := forwardData_history j (chunkLength j r') r' List.prefix_rfl
        rcases hres : forwardData j (chunkLength j r') r' with ⟨f', r''⟩
        rw [hres] at hwaits' hprefix'
        by_cases hf' : f' = .go
        · subst hf'
          rw [groupLoop_of_forwarded hlt hs hres]
          exact ih.of_prefix (hprefix.trans hprefix')
        · rw [groupLoop_of_unforwarded hlt hs hres hf']
          exact hwaits'.of_prefix hprefix
      · rw [groupLoop_of_unseparated hlt hs hf]
        exact hwaits
    · rw [groupLoop_of_end hlt]
      nofun

theorem grouperBody_waits : WaitsAfterOffer j r.port.history (grouperBody j r) := by
  unfold grouperBody
  split
  · split
    · exact forwardLoop_waits
    · nofun
  · exact groupLoop_waits _

end

section
variable {s : State} {n : BitVec 4} {k : Bool} {m : Byte}

theorem State.encoderRun_waits : WaitsAfterOffer (s.putJob .encoder n k m) (s.portE n).history (s.encoderRun n k m) :=
  PutUnit.run_waits (fun _ hi => encoderUnit_eats.loop_waits _ hi) (fun r => encoderBody_history _ r List.prefix_rfl)
    encoderUnit_lawful ⟨s.encoder n, s.portE n, s.latch.pos⟩

theorem State.decoderRun_waits : WaitsAfterOffer (s.putJob .decoder n k m) (s.portD n).history (s.decoderRun n k m) :=
  PutUnit.run_waits (fun _ hi => decoderUnit_eats.loop_waits _ hi) (fun r => decoderBody_history _ r List.prefix_rfl)
    decoderUnit_lawful ⟨s.decoder n, s.portD n, s.latch.pos⟩

theorem State.grouperRun_waits : WaitsAfterOffer (s.putJob .grouper n k m) (s.portG n).history (s.grouperRun n k m) :=
  PutUnit.run_waits (fun _ _ => grouperBody_waits) (fun r => grouperBody_history _ r List.prefix_rfl)
    grouperUnit_lawful ⟨s.grouper n, s.portG n, s.latch.pos⟩

end

/-! ### Ends -/

/-- The command has ended: `BUSY` is 0, `DONE` is 1 and the latches are given up (R47, R304 step 3). -/
def State.Ended (t : State) : Prop := t.status.busy = false ∧ t.status.done = true ∧ t.latch = Latch.idle

theorem State.raise_ended (s : State) (code : ErrorCode) (arg : ArgIndex) : (s.raise code arg).Ended := ⟨rfl, rfl, rfl⟩

theorem State.finish_ended (s : State) (r : Word) : (s.finish r).Ended := ⟨rfl, rfl, rfl⟩

theorem State.stall_ended (s : State) (r : Word) : (s.stall r).Ended := ⟨rfl, rfl, rfl⟩

/-- A guarded command whose effect is an end ends. -/
theorem State.guarded_ended (s : State) (cs : List Check) {effect : State} (h : effect.Ended) :
    ∃ t, s.guarded cs effect = .next t ∧ t.Ended := by
  obtain ⟨t, ht⟩ := s.guarded_next cs effect
  obtain ⟨c, -, -, -, rfl⟩ | ⟨-, rfl⟩ := State.guarded_cases ht
  · exact ⟨_, ht, s.raise_ended _ _⟩
  · exact ⟨_, ht, h⟩

/-- The command goes on: a blocking put that has offered bytes at the port of `n` and counts the events it has recorded. -/
structure State.Waits (s t : State) (u : FilterUnit) (n : BitVec 4) : Prop where
  status : t.status = s.status
  result : t.result = s.result
  offered : (s.port u n).history.length < (t.port u n).history.length
  counted : t.latch.events = s.latch.events + ((t.port u n).history.length - (s.port u n).history.length)

/-- A put that runs as `res` and, once its checks `cs` pass, stores the port that the run leaves: it ends, or waits where its
run does. -/
theorem State.put_ended_or_waits {U : Type} {s : State} {w : FilterUnit} {n : BitVec 4} {j : PutJob} {cs : List Check}
    {res : Flow × PutRun U} {stored : State} (hwaits : WaitsAfterOffer j (s.port w n).history res)
    (hstatus : stored.status = s.status) (hresult : stored.result = s.result) (hlatch : stored.latch = s.latch)
    (hport : (∀ c ∈ cs, c.fails = false) → stored.port w n = res.2.port) :
    ∃ t, s.guarded cs (stored.endPut res.1 res.2.pos (res.2.port.history.length - (s.port w n).history.length)) = .next t ∧
      (t.Ended ∨ j.blocking = true ∧ s.Waits t w n) := by
  obtain ⟨t, ht⟩ := s.guarded_next cs
    (stored.endPut res.1 res.2.pos (res.2.port.history.length - (s.port w n).history.length))
  refine ⟨t, ht, ?_⟩
  obtain ⟨c, -, -, -, rfl⟩ | ⟨hpass, rfl⟩ := State.guarded_cases ht
  · exact .inl (s.raise_ended _ _)
  · cases hf : res.1 with
    | go => exact .inl (stored.finish_ended _)
    | stall => exact .inl (stored.stall_ended _)
    | wait =>
      obtain ⟨hblocking, hlt⟩ := hwaits hf
      have hsame : ((stored.endPut .wait res.2.pos (res.2.port.history.length - (s.port w n).history.length)).port w n) =
          res.2.port := by
        rw [← hport hpass]
        cases w <;> rfl
      refine .inr ⟨hblocking, hstatus, hresult, by rwa [hsame], ?_⟩
      rw [hsame, ← hlatch]
      rfl

/-- An entry that has a property which the default has not lies in its bank. -/
theorem lt_of_entry {α : Type} {k : Nat} {p : α → Bool} {v : Vector α k} {i : Nat} {d : α} (h : p (entry v i d) = true)
    (hd : p d = false) : i < k := by
  by_contra hge
  rw [entry_of_le v i d (Nat.not_lt.mp hge), hd] at h
  cases h

/-- The unit of a put whose checks pass is valid (R196). -/
theorem valid_of_putChecks {U : Type} {u : PutUnit U} {unit : U} {s : State} (h : ∀ c ∈ putChecks u unit s, c.fails = false) :
    u.valid unit = true := by
  have hready := h ⟨!u.valid unit, .notReady, .inst⟩ (by simp [putChecks])
  simpa using hready

/-- Every command ends, or is a blocking put that waits. -/
theorem exec_ended_or_waits (i : Instr) (s : State) :
    ∃ t, exec i s = .next t ∧ (t.Ended ∨ blockingPut i = true ∧ ∃ u n, putInstance i = some (u, n) ∧ s.Waits t u n) := by
  cases i with
  | bencPut n k m =>
    obtain ⟨t, ht, h⟩ := State.put_ended_or_waits (w := .encoder) (cs := putChecks encoderUnit (s.encoder n) s)
      (stored := (s.setEncoder n (s.encoderRun n k m).2.unit).setPortE n (s.encoderRun n k m).2.port)
      s.encoderRun_waits rfl rfl rfl fun hpass =>
        State.portE_setPortE _ _ _ (lt_of_entry (p := encoderUnit.valid) (valid_of_putChecks hpass) rfl)
    exact ⟨t, ht, h.imp_right fun ⟨hk, hw⟩ => ⟨hk, _, _, rfl, hw⟩⟩
  | bdecPut n k m =>
    obtain ⟨t, ht, h⟩ := State.put_ended_or_waits (w := .decoder) (cs := putChecks decoderUnit (s.decoder n) s)
      (stored := (s.setDecoder n (s.decoderRun n k m).2.unit).setPortD n (s.decoderRun n k m).2.port)
      s.decoderRun_waits rfl rfl rfl fun hpass =>
        State.portD_setPortD _ _ _ (lt_of_entry (p := decoderUnit.valid) (valid_of_putChecks hpass) rfl)
    exact ⟨t, ht, h.imp_right fun ⟨hk, hw⟩ => ⟨hk, _, _, rfl, hw⟩⟩
  | grpPut n k m =>
    obtain ⟨t, ht, h⟩ := State.put_ended_or_waits (w := .grouper) (cs := putChecks grouperUnit (s.grouper n) s)
      (stored := (s.setGrouper n (s.grouperRun n k m).2.unit).setPortG n (s.grouperRun n k m).2.port)
      s.grouperRun_waits rfl rfl rfl fun hpass =>
        State.portG_setPortG _ _ _ (lt_of_entry (p := grouperUnit.valid) (valid_of_putChecks hpass) rfl)
    exact ⟨t, ht, h.imp_right fun ⟨hk, hw⟩ => ⟨hk, _, _, rfl, hw⟩⟩
  | aesClearKey n => exact ⟨_, rfl, .inl (State.finish_ended _ _)⟩
  | aesSetKey | aesProcessBlock | aesProcessBlocks | aesReadRk | bencInit | bdecBuildLookup | bdecInit | grpInit =>
    exact (s.guarded_ended _ (State.finish_ended _ _)).imp fun _ ⟨ht, hended⟩ => ⟨ht, .inl hended⟩

end Sys2Proof.Machine
end

section
/-! PROOF. The statements of spec/60_exceptions.md. -/

namespace Sys2Proof.Proofs

open Sys2Proof.Machine Sys2Proof.Statements

/-- Settles O14: each part of a put that waits has made an offer, and every other way out of a command is an end. -/
theorem commandsEnd : Obligations.CommandsEnd := by
  intro i s
  obtain ⟨t, hexec, hended | ⟨hblocking, u, n, hput, hwaits⟩⟩ := exec_ended_or_waits i s
  · exact ⟨t, hexec, .inl hended⟩
  · refine ⟨t, hexec, .inr ⟨hblocking, hwaits.status, hwaits.result, fun u' n' hput' => ?_⟩⟩
    obtain ⟨rfl, rfl⟩ := Prod.mk.inj (Option.some.inj (hput.symm.trans hput'))
    exact ⟨hwaits.offered, hwaits.counted⟩

/-- Settles O15: only the command's checks raise, before its first effect. -/
theorem errorsArePrecise : Obligations.ErrorsArePrecise := by
  intro i s t ⟨hstatus, _⟩ hexec herr
  obtain ⟨code, arg, rfl, hlisted⟩ := exec_raises_listed (by rw [hstatus]) hexec herr
  refine ⟨?_, hlisted⟩
  have hfail : s.status.fail code arg = ⟨false, true, false, s.status.overrun, code, arg⟩ := by rw [hstatus]; rfl
  exact congrArg (fun status => { s with status := status, latch := Latch.idle }) hfail

/-- Settles O16: in each case the checks before the one that fails pass, in the order of R273. -/
theorem failedChecksAreReported : Obligations.FailedChecksAreReported := by
  intro n s
  refine ⟨fun h => ⟨fun x => ?block, fun x y d c => ?bulk, ?readRk⟩, fun h k m => ?bencPut, fun h k m => ?bdecPut,
    fun h k m => ?grpPut, fun h16 h24 h32 d => ?setKey, fun b p f pad => ?noAlphabet, fun a p f pad => ?bencBpc,
    fun b => ?noTable, fun l => ?bdecBpc, fun h ci => ?symbols, fun h q => ?noSeparator, fun h q => ?separator,
    fun h p hsep hp => ?terminator, fun hlen h0 h2 ci hdup => ?duplicate⟩
  case block | bulk | readRk | bencPut | bdecPut | grpPut => exact State.guarded_notReady h
  case setKey => exact State.guarded_of_headFails (by simp [legalKeyLength, h16, h24, h32])
  case noAlphabet | noTable => exact exec_of_guarded fun _ => State.guarded_baseNInit (.inl rfl)
  case bencBpc | bdecBpc => exact exec_of_guarded fun _ => State.guarded_baseNInit (.inr rfl)
  case symbols => exact State.guarded_of_headFails (decide_eq_true h)
  case noSeparator => exact State.guarded_of_headFails (by simp [h])
  case separator =>
    exact State.guarded_of_firstFailing [⟨decide (0 < s.param5.toNat) && !true, .invalidArgument, .flags⟩] _ rfl (by simp)
      (by simpa using h)
  case terminator =>
    have hgiven : 0 < s.param5.toNat → p = true := fun hpos => by
      by_contra hne
      rw [hsep (by simpa using hne)] at hpos
      cases hpos
    exact State.guarded_of_firstFailing [_, _] _ rfl
      (fun c hc => grpInitFlagChecks_pass (q := false) hgiven hp nofun c (List.mem_append_left [_] hc)) (by simpa using h)
  case duplicate =>
    refine State.guarded_of_firstFailing [⟨decide (128 < s.len3), .invalidArgument, .a3⟩, rangeCheck s.addr0 s.len3 .a0,
      rangeCheck s.addr2 256 .a2] [] rfl ?_ (buildLookup_isNone hdup)
    simp only [List.forall_mem_cons, rangeCheck_passes_iff_fits]
    exact ⟨decide_eq_false (Nat.not_lt.mpr hlen), h0, h2, nofun⟩

end Sys2Proof.Proofs
end
